-- ==== Sys2Proof/Word.lean ====
section
/-!
DEFINITION. The word types of the KM-4812 model and the sparse map that holds every numbered collection.
-/

namespace Sys2Proof

abbrev Byte := BitVec 8
abbrev W16 := BitVec 16
abbrev W32 := BitVec 32
abbrev W64 := BitVec 64

/-- A map from numbers to values, held as pairs with strictly rising keys; a key that is not listed
reads as a default that the reader names. Storage of bytes is `Sparse Byte`, which is a list of
`Host.Cell`. -/
abbrev Sparse (α : Type) := List (Nat × α)

abbrev Memory := Sparse Byte

end Sys2Proof
end

