-- ==== Sys2Proof/Syntax.lean ====
section
/-!
DEFINITION. The instruction type: one constructor per row of spec/opcode_table.json. A row with an
encoding carries its fields as bit vectors of the widths of its layout (spec/13_encoding.md). A row
without one is a step of the package (spec/95_what_each_step_holds.md): its arguments name what it
acts on, or carry what the outside world brings; the rows at the end act on the message, scan or
group that State.subject names (log 6).
-/

namespace Sys2Proof

/-- What the silicon answers during bring-up (R23): the self-tests, the training, the alignment and the links. -/
structure BootEnv where
  diesOk      : BitVec 4
  stacksOk    : BitVec 8
  tideOk      : Bool
  stationsUp  : BitVec 16
  portsUp     : BitVec 8
  deriving DecidableEq, Repr, Inhabited

/-- The outcome of the recovery DMA (R50), with what the silicon answers in the bring-up that follows an accepted
image (R24). -/
structure RecoveryRead where
  dmaOk : Bool
  env   : BootEnv
  deriving DecidableEq, Repr, Inhabited

/-- The kinds of UALink access that R35 lets another package make. -/
inductive RemoteOp where
  | read (len : Nat)
  | write (data : List Byte)
  | atomic (op : BitVec 4) (w32 : Bool) (operand : W64)
  | cas (expected new : W64)
  deriving DecidableEq, Repr

/-- A plain UALink access from another package (R42): sender, offset in the home partition, kind. -/
structure RemoteAccess where
  src   : BitVec 10
  spart : BitVec 5
  addr  : Nat
  op    : RemoteOp
  deriving DecidableEq, Repr

/-- One constructor per row of the opcode table. -/
inductive Instr where
  /-- PACKAGE_RESET: Package reset runs the harbour die's bring-up phases in order, from the boot ROM to Ready (R23) -/
  | packageReset (env : BootEnv)
  /-- TIDE_COMPARE: Every 2^16 tc the harbour die compares each die's tide count with its own (R18) -/
  | tideCompare (bad : BitVec 4)
  /-- POWER_WINDOW: At the end of each 1 ms window the package's average power is compared with PLIMIT (R20) -/
  | powerWindow (watts : Nat)
  /-- THERMAL_SAMPLE: Every 100 µs the harbour die reads all junction sensors and responds to the hottest reading (R22) -/
  | thermalSample (celsius : Nat)
  /-- RCVGO: A write of 1 to RCVGO in recovery wait starts the DMA read of the replacement image (R50) -/
  | rcvgo (v : W64)
  /-- RECOVERY_IMAGE_READ: When the recovery DMA completes, phase 2 is repeated; on acceptance the image is written to flash and bring-up continues at phase 3 (R24) -/
  | recoveryImageRead (r : RecoveryRead)
  /-- UNCORRECTABLE_FLIT: An uncorrectable flit is replayed if untimed, or freezes the gangs using the link if timed (R33) -/
  | uncorrectableFlit (edge : Nat) (timed : Bool)
  /-- STATION_DOWN: A UALink station going down fails its outstanding accesses and remaps later traffic to the next station that is up (R38) -/
  | stationDown (station : Nat)
  /-- INBOX_WRITE: A UALink write to the reduction inbox is parsed into records, which are checked, discarded or passed to base dies (R41) -/
  | inboxWrite (addr : BitVec 48) (data : List Byte)
  /-- INBOX_READ: A read of the reduction inbox window returns zeros (R39) -/
  | inboxRead (addr : BitVec 48) (len : Nat)
  /-- INBOX_ATOMIC: An atomic to the reduction inbox window completes with a UALink error (R39) -/
  | inboxAtomic (addr : BitVec 48)
  /-- REMOTE_ACCESS: A plain UALink read, write or atomic arriving from another package is resolved through the inbox binding table and served, or refused (R42) -/
  | remoteAccess (r : RemoteAccess)
  /-- INBOX_WRITE_SEND: A sending station gathers one core's records for a home package into a 64 B or 256 B inbox write, padded with null records (R40) -/
  | inboxWriteSend (core home : Nat)
  /-- ETHERNET_TRANSFER_COMPLETE: An Ultra Ethernet transfer ends in its completion record, or in FAILED_FAULT once its retries are exhausted (R44) -/
  | ethernetTransferComplete (transfer : Nat) (delivered : Bool)
  /-- ETHERNET_PORT_DOWN: A port that goes down narrows the packet spray to the remaining ports (R44) -/
  | ethernetPortDown (port : Nat)
  /-- PLIMIT_WRITE: A write to PLIMIT sets the power limit, or raises a configuration error if the value is out of range (R49) -/
  | plimitWrite (v : W64)
  /-- PARTITION_CONFIG_WRITE: A write to PCOH, PRNG, PVF or PCTL applies only in the states and ownership conditions allowed (R62) -/
  | partitionConfigWrite (p off : Nat) (v : W64)
  /-- PCMD_START: PCMD value 1 moves a Stopped partition that has cohorts and ranges to Running (R62) -/
  | pcmdStart (p : Nat)
  /-- PCMD_RESET: PCMD value 2 resets the partition through the steps of R63 (R63) -/
  | pcmdReset (p : Nat)
  /-- FIRMWARE_PARTITION_RESET: Firmware resets a partition after a fault that cannot be contained in a task (R63) -/
  | firmwarePartitionReset (p : Nat)
  /-- PARTITION_RESET_COMPLETE: Once accepted writes and OPTS records have drained, the partition's on-chip state is cleared and STATE returns to Stopped (R63) -/
  | partitionResetComplete (p : Nat)
  /-- KEY_OWNER_WRITE: A write to a key owner byte changes the slot's owner, and any change erases the slot's key (R66) -/
  | keyOwnerWrite (slot : Nat) (v : Byte)
  /-- INBOX_BINDING_WRITE: A write to an inbox binding entry binds a remote sender to a home partition, or raises a configuration error (R42) -/
  | inboxBindingWrite (entry : Nat) (v : Byte)
  /-- KVSPLIT_WRITE: A write to KVSPLIT sets the KV region size, and is accepted only while every partition is Stopped (R216) -/
  | kvsplitWrite (v : W64)
  /-- ATTEST: Mailbox command 0x01 returns a signed attestation report over the given nonce (R67) -/
  | attest (fn : Nat)
  /-- LOADKEY: Mailbox command 0x02 unwraps an XTS key through ECDH and loads it into an owned slot (R67) -/
  | loadkey (fn : Nat)
  /-- CLEARKEY: Mailbox command 0x03 erases a key slot (R67) -/
  | clearkey (fn : Nat)
  /-- GETCERT: Mailbox command 0x04 returns the identity key's certificate chain (R67) -/
  | getcert (fn : Nat)
  /-- QCFG_WRITE: A write to QCFG enables or disables a queue, setting QHEAD to QTAIL on enable, or is refused and sets ERR (R55) -/
  | qcfgWrite (vf q : Nat) (v : W64)
  /-- QTAIL_WRITE: A write to QTAIL publishes task records and releases earlier posted writes, or is refused and sets ERR (R55) -/
  | qtailWrite (vf q : Nat) (v : W64)
  /-- QBASE_WRITE: A write to QBASE sets the ring base, and is refused while EN is 1 (R55) -/
  | qbaseWrite (vf q : Nat) (v : W64)
  /-- OVSIZE_WRITE: A write to OVSIZE sets the spawn overflow capacity, or places a queue-error event if the value is above 2^20 (R51) -/
  | ovsizeWrite (vf : Nat) (v : W64)
  /-- EQSIZE_WRITE: A write to EQSIZE enables the event ring and sets EQTAIL to EQHEAD, or has no effect if LOG2 is out of range (R73) -/
  | eqsizeWrite (fn : Nat) (v : W64)
  /-- EVACK: A write to EVACK acknowledges a translation-miss event, and the gang retries the translation and resumes (R72) -/
  | evack (fn : Nat) (v : W64)
  /-- XIGO: A write of 1 to XIGO starts an invalidation that marks the partition's matching translation-buffer entries dying (R175) -/
  | xigo (vf : Nat) (v : W64)
  /-- INVALIDATION_DONE: When every dying entry's in-flight count is zero, the entries are dropped, BUSY clears and DONE increments (R175) -/
  | invalidationDone (vf : Nat)
  /-- FLR_VF: A function-level reset of a virtual function disables its queues and aborts the work taken from them (R64) -/
  | flrVf (vf : Nat)
  /-- FLR_VF_COMPLETE: After the function's accepted writes drain, its event-queue, overflow, invalidation and mailbox registers return to reset values (R64) -/
  | flrVfComplete (vf : Nat)
  /-- CORE_RETIREMENT: When a core is retired with ROUTE set, a route-regeneration event goes to every function of the core's partition (R74) -/
  | coreRetirement (core : Nat)
  /-- BANK_REMAP_COMMAND: A host remap command names an offline bank and spare rows; the harbour die copies readable rows and clears the offline state (R75) -/
  | bankRemapCommand (bank : Nat) (rows : List Nat)
  /-- REGISTER_WRITE: A write to a register with no row of its own applies the access codes of its fields (R7) -/
  | registerWrite (fn off : Nat) (v : W64)
  /-- TASK_TAKE: The home-die scheduler takes a task record from a queue, checks it and advances QHEAD (R56) -/
  | taskTake (vf q : Nat)
  /-- KERNEL_NODE: A kernel node becomes a task that enters its owner die's ready set (R86) -/
  | kernelNode (graph : Nat)
  /-- COPY_NODE: A copy node acquires at device scope and starts copying LEN bytes from SRCA to DSTA (R87) -/
  | copyNode (graph : Nat)
  /-- COPY_NODE_COMPLETE: A copy node finishes with a device-scope release and its completion record (R87) -/
  | copyNodeComplete (copy : Nat)
  /-- SIGNAL_NODE: A signal node releases at its scope and then stores to or adds to the word at ADDR (R88) -/
  | signalNode (graph : Nat)
  /-- WAIT_NODE: A wait node reads its word with acquire and completes if the comparison holds (R89) -/
  | waitNode (graph : Nat)
  /-- WAIT_NODE_REREAD: A wait node rereads its word within 256 tc of a failed read (R89) -/
  | waitNodeReread (graph : Nat)
  /-- WAIT_NODE_TIMEOUT: The expiry of a wait node's TIMEOUT ends the node with FAILED_FAULT and 0x1B (R89) -/
  | waitNodeTimeout (graph : Nat)
  /-- CONDITIONAL_NODE: A conditional node reads its predicate once and continues at NEXT or at ALT (R91) -/
  | conditionalNode (graph : Nat)
  /-- LOOP_NODE: A loop node counts trips, reads its predicate, and either enters BODY, fails at MAXTRIP, or writes the count and exits (R92) -/
  | loopNode (graph : Nat)
  /-- JOIN_NODE: A join node completes when every outstanding NOWAIT node of its graph has completed (R93) -/
  | joinNode (graph : Nat)
  /-- GRAPH_COMPLETE: A draining graph writes its completion record once every outstanding NOWAIT node has completed (R93) -/
  | graphComplete (graph : Nat)
  /-- SPILL_MOVE: Spilled records move from the overflow area into their queue in spill order as slots free (R96) -/
  | spillMove (vf q : Nat)
  /-- ADMISSION_DECISION: Every 4 tc each die picks at most one admittable gang by class priority and deficit round-robin (R104) -/
  | admissionDecision (die : Nat)
  /-- RESERVATION_CANDIDATE: A task that has waited more than 600,000 tc and is not admittable becomes a reservation candidate (R108) -/
  | reservationCandidate (task : Nat)
  /-- ROW_LOAD_COMPLETE: A successor's row finishes loading, and its lease entry moves from Loading to Next (R110) -/
  | rowLoadComplete (core row : Nat)
  /-- GANG_START: At the common start tide S, the gang's cores take their initial state and begin issuing (R106) -/
  | gangStart (task : Nat)
  /-- PREEMPTION_STOP: A pre-emption stop freezes the gang, empties its queues, fails its outstanding work with FAILED_PREEMPT and empties the heap (R118) -/
  | preemptionStop (task : Nat)
  /-- CORE_RELEASE: 16 tc after the last core froze, the cores are released, Live rows are freed and the task becomes Parked (R118) -/
  | coreRelease (task : Nat)
  /-- RUNMAX_EXPIRY: A non-pre-emptible gang still not quiet at S + RUNMAX × 1,024 tc is stopped with FAILED_FAULT and 0x1B (R114) -/
  | runmaxExpiry (task : Nat)
  /-- HALT_WATCHDOG_EXPIRY: A core not quiet within the watchdog after its HALT ends the task with 0x1B (R113) -/
  | haltWatchdogExpiry (core : Nat)
  /-- SLIP_WATCHDOG_EXPIRY: A single slip longer than the partition's watchdog ends the task with 0x1B (R115) -/
  | slipWatchdogExpiry (task : Nat)
  /-- GATE_WATCHDOG_EXPIRY: A gate wait longer than PCTL.WDOG ends the task with FAILED_FAULT and 0x1B, and no handler runs (R131) -/
  | gateWatchdogExpiry (core : Nat)
  /-- GANG_END: The gang ends when the last of its cores becomes quiet (R113) -/
  | gangEnd (task : Nat)
  /-- TASK_COMPLETE: A task's completion record is written as a system-scope release, followed by MSI-X if IRQ is set (R60) -/
  | taskComplete (task : Nat)
  /-- PRESENCE_CHECK: At max(t − H, G), the core checks that the uncontrolled operands of the word at t are present (R133) -/
  | presenceCheck (core : Nat)
  /-- SLIP_PLANE: At plane F every core stops issuing and captures operations due at F or later (R135) -/
  | slipPlane (task : Nat)
  /-- SLIP_RESUME: At F + W every core adds W to TBASE and SLIP and resumes issue, and captured operations perform (R135) -/
  | slipResume (task : Nat)
  /-- FREEZE_ARRIVAL: A fault freeze reaches another core of the gang after its lag, and that core captures operations at the plane (R137) -/
  | freezeArrival (core : Nat)
  /-- HANDLER_START: The handler of the next faulting core begins as a segment 16 tc after the freeze or after the previous RETH (R142) -/
  | handlerStart (task : Nat)
  /-- GANG_RESUME: At the resume tide named by RETH, every core resumes issue shifted by W and FCAUSE.V clears (R143) -/
  | gangResume (task : Nat)
  /-- TILE_RELOAD_COMPLETE: An absent tile's reload from its save slot, or its zero fill, completes, and the tile becomes present (R146) -/
  | tileReloadComplete (core tile : Nat)
  /-- GATE_ARRIVAL: A core arrives at its gate once every queue has issued GATE and every exposed operation has performed (R129) -/
  | gateArrival (core : Nat)
  /-- GATE_OPEN: The gate opens when every core concerned has arrived and the condition holds; the next segment starts at G + D (R130) -/
  | gateOpen (core : Nat)
  /-- TRANSLATION_WALK_DONE: The end of a walk resumes the gang with the new entry, or raises a translation fault (R173) -/
  | translationWalkDone (core : Nat)
  /-- GLOBAL_LOAD_LANDING: Data of a global load, LDG, LDV, GTH or atomic reply lands in its pending destination, or raises 0x19 if uncorrectable (R383) -/
  | globalLoadLanding (core req : Nat)
  /-- GLOBAL_WRITE_ACK: A global store's acknowledgement retires it and lowers its translation entry's in-flight count (R174) -/
  | globalWriteAck (core req : Nat)
  /-- STATUS_REPLY_LANDING: An asynchronous status reply of KVA, KVR, BWO or SPAWN lands in its pending register (R383) -/
  | statusReplyLanding (core req : Nat)
  /-- COOLING_RECLAIM: At RECL, a Cooling value's blocks become Free and their tags advance (R187) -/
  | coolingReclaim (core block : Nat)
  /-- BANK_REFRESH: Each bank is refreshed once every 1.95 µs, and any scan in it pauses and then resumes (R220) -/
  | bankRefresh (bank : Nat)
  /-- BANK_REMAP_COMPLETE: Firmware remaps failing rows to spare rows, copies readable rows and brings the bank back (R235) -/
  | bankRemapComplete (bank : Nat) (rows lost : List Nat)
  /-- PHASE_ONE: The base die computes a contributor's norm and scale and commits it (R243) -/
  | phaseOne (group c : Nat)
  /-- ENGINE_COMMAND_START: An engine command starts moving data once START, its flags and its ring conditions are met (R327) -/
  | engineCommandStart (core cmd : Nat)
  /-- ENGINE_COMMAND_RETIRE: An engine command publishes or releases its slot, signals SMASK and writes its completion record (R327) -/
  | engineCommandRetire (core cmd : Nat)
  /-- CHAIN_ENTRY_FETCH: A running chain fetches its next entry and runs it REP + 1 times (R330) -/
  | chainEntryFetch (core slot : Nat)
  /-- LOCK_ATTEMPT: An RLK or WLK retries its atomic attempt 32 tc after the previous result is known (R416) -/
  | lockAttempt (core : Nat)
  /-- TAKE_READ: A TAKE rereads its future cell 32 tc after a read that found it empty (R426) -/
  | takeRead (core : Nat)
  /-- ADD: Adds two scalar registers (R310) -/
  | add (i : BitVec 3) (d : BitVec 5) (a : BitVec 5) (b : BitVec 5)
  /-- SUB: Subtracts one scalar register from another (R310) -/
  | sub (i : BitVec 3) (d : BitVec 5) (a : BitVec 5) (b : BitVec 5)
  /-- ADDI: Adds a sign-extended 10-bit immediate (R310) -/
  | addi (i : BitVec 3) (d : BitVec 5) (a : BitVec 5) (m : BitVec 10)
  /-- MUL: Returns the low 64 bits of a product (R310) -/
  | mul (i : BitVec 3) (d : BitVec 5) (a : BitVec 5) (b : BitVec 5)
  /-- MULH: Returns the high 64 bits of a signed or natural product (R310) -/
  | mulh (i : BitVec 3) (d : BitVec 5) (a : BitVec 5) (b : BitVec 5) (n : BitVec 1)
  /-- DIV: Returns a signed or natural quotient or remainder, without trapping (R311) -/
  | div (i : BitVec 3) (d : BitVec 5) (a : BitVec 5) (b : BitVec 5) (f : BitVec 2)
  /-- AND: Bitwise AND of two registers (R310) -/
  | and (i : BitVec 3) (d : BitVec 5) (a : BitVec 5) (b : BitVec 5)
  /-- OR: Bitwise OR of two registers (R310) -/
  | or (i : BitVec 3) (d : BitVec 5) (a : BitVec 5) (b : BitVec 5)
  /-- XOR: Bitwise XOR of two registers (R310) -/
  | xor (i : BitVec 3) (d : BitVec 5) (a : BitVec 5) (b : BitVec 5)
  /-- ANDI: Bitwise AND with a sign-extended immediate (R310) -/
  | andi (i : BitVec 3) (d : BitVec 5) (a : BitVec 5) (m : BitVec 10)
  /-- ORI: Bitwise OR with a sign-extended immediate (R310) -/
  | ori (i : BitVec 3) (d : BitVec 5) (a : BitVec 5) (m : BitVec 10)
  /-- XORI: Bitwise XOR with a sign-extended immediate (R310) -/
  | xori (i : BitVec 3) (d : BitVec 5) (a : BitVec 5) (m : BitVec 10)
  /-- SHL: Shifts left by bits 5:0 of register b (R312) -/
  | shl (i : BitVec 3) (d : BitVec 5) (a : BitVec 5) (b : BitVec 5)
  /-- SHL_IMM: Shifts left by an immediate amount of 0 to 63 (R312) -/
  | shlImm (i : BitVec 3) (d : BitVec 5) (a : BitVec 5) (b : BitVec 5) (h : BitVec 1)
  /-- SHR: Logical shift right by a register amount (R312) -/
  | shr (i : BitVec 3) (d : BitVec 5) (a : BitVec 5) (b : BitVec 5)
  /-- SHR_IMM: Logical shift right by an immediate amount (R312) -/
  | shrImm (i : BitVec 3) (d : BitVec 5) (a : BitVec 5) (b : BitVec 5) (h : BitVec 1)
  /-- SAR: Arithmetic shift right by a register amount (R312) -/
  | sar (i : BitVec 3) (d : BitVec 5) (a : BitVec 5) (b : BitVec 5)
  /-- SAR_IMM: Arithmetic shift right by an immediate amount (R312) -/
  | sarImm (i : BitVec 3) (d : BitVec 5) (a : BitVec 5) (b : BitVec 5) (h : BitVec 1)
  /-- MIN: Signed or natural minimum (R310) -/
  | min (i : BitVec 3) (d : BitVec 5) (a : BitVec 5) (b : BitVec 5) (n : BitVec 1)
  /-- MAX: Signed or natural maximum (R310) -/
  | max (i : BitVec 3) (d : BitVec 5) (a : BitVec 5) (b : BitVec 5) (n : BitVec 1)
  /-- CLZ: Counts leading zero bits (R310) -/
  | clz (i : BitVec 3) (d : BitVec 5) (a : BitVec 5)
  /-- POPC: Counts one bits (R310) -/
  | popc (i : BitVec 3) (d : BitVec 5) (a : BitVec 5)
  /-- CMP: Writes 1 when the selected comparison holds, else 0 (R310) -/
  | cmp (i : BitVec 3) (d : BitVec 5) (a : BitVec 5) (b : BitVec 5) (c : BitVec 5)
  /-- SEL: Selects a when register c is nonzero, else b (R310) -/
  | sel (i : BitVec 3) (d : BitVec 5) (a : BitVec 5) (b : BitVec 5) (c : BitVec 5)
  /-- LI: Loads a sign-extended 15-bit immediate (R310) -/
  | li (i : BitVec 3) (d : BitVec 5) (m : BitVec 15)
  /-- LSI: Shifts d left by 15 and inserts a 15-bit immediate (R310) -/
  | lsi (i : BitVec 3) (d : BitVec 5) (m : BitVec 15)
  /-- SPT: Returns the space class of a generic pointer (R313) -/
  | spt (i : BitVec 3) (d : BitVec 5) (a : BitVec 5)
  /-- SPC: Converts between the private and scratchpad forms of a pointer (R313) -/
  | spc (i : BitVec 3) (d : BitVec 5) (a : BitVec 5) (f : BitVec 1)
  /-- LOOP: Opens a loop with an immediate trip count and a period (R314) -/
  | loop (i : BitVec 3) (c : BitVec 9) (p : BitVec 10)
  /-- LOOP_REG: Opens a loop whose trip count comes from a launch register s24–s31 (R314) -/
  | loopReg (i : BitVec 3) (j : BitVec 3) (p : BitVec 10)
  /-- ENDL: Ends a loop body; fetch repeats the body for the remaining trips (R315) -/
  | endl (i : BitVec 3)
  /-- NOP: Occupies its issue slot and does nothing (R318) -/
  | nop (i : BitVec 3)
  /-- HALT: Ends the stream; fetch stops and any pending reuse run becomes Cooling (R318) -/
  | halt (i : BitVec 3)
  /-- BFX: Extracts a bit field, zero- or sign-extended (R310) -/
  | bfx (i : BitVec 3) (d : BitVec 5) (a : BitVec 5) (b : BitVec 5) (f : BitVec 1)
  /-- BFI: Inserts the low bits of a into a field of d (R310) -/
  | bfi (i : BitVec 3) (d : BitVec 5) (a : BitVec 5) (b : BitVec 5)
  /-- GATE: Ends its queue's segment (R295) -/
  | gate (e : BitVec 3) (i : BitVec 3)
  /-- WAIT: Idles its queue for n cycles after its issue (R296) -/
  | wait (e : BitVec 3) (i : BitVec 3) (n : BitVec 20)
  /-- GUARD: Makes the next word of its queue run only when the named register bit, xor inv, is 1 (R297) -/
  | guard (e : BitVec 3) (r : BitVec 5) (b : BitVec 6) (v : BitVec 1)
  /-- RMODE: Sets the rounding mode and SAT of the V, M or W engine (R271) -/
  | rmode (e : BitVec 3) (i : BitVec 3) (s : BitVec 1) (m : BitVec 3)
  /-- VADD: Adds rows lane by lane (R350) -/
  | vadd (i : BitVec 3) (d : BitVec 4) (a : BitVec 4) (b : BitVec 5) (s : BitVec 1) (p : BitVec 1) (q : BitVec 1) (r : BitVec 1) (f : BitVec 1)
  /-- VSUB: Subtracts rows lane by lane (R350) -/
  | vsub (i : BitVec 3) (d : BitVec 4) (a : BitVec 4) (b : BitVec 5) (s : BitVec 1) (p : BitVec 1) (q : BitVec 1) (r : BitVec 1) (f : BitVec 1)
  /-- VMUL: Multiplies rows lane by lane (R350) -/
  | vmul (i : BitVec 3) (d : BitVec 4) (a : BitVec 4) (b : BitVec 5) (s : BitVec 1) (p : BitVec 1) (q : BitVec 1) (r : BitVec 1) (f : BitVec 1)
  /-- VFMA: Fused multiply-add with d, with one rounding (R350) -/
  | vfma (i : BitVec 3) (d : BitVec 4) (a : BitVec 4) (b : BitVec 5) (s : BitVec 1) (p : BitVec 1) (q : BitVec 1) (r : BitVec 1) (f : BitVec 2)
  /-- VMAX: Lane-wise maximum (R350) -/
  | vmax (i : BitVec 3) (d : BitVec 4) (a : BitVec 4) (b : BitVec 5) (s : BitVec 1) (p : BitVec 1) (q : BitVec 1) (r : BitVec 1)
  /-- VMIN: Lane-wise minimum (R350) -/
  | vmin (i : BitVec 3) (d : BitVec 4) (a : BitVec 4) (b : BitVec 5) (s : BitVec 1) (p : BitVec 1) (q : BitVec 1) (r : BitVec 1)
  /-- VABS: Lane-wise absolute value (R350) -/
  | vabs (i : BitVec 3) (d : BitVec 4) (a : BitVec 4) (p : BitVec 1) (q : BitVec 1) (f : BitVec 1)
  /-- VNEG: Lane-wise negation (R350) -/
  | vneg (i : BitVec 3) (d : BitVec 4) (a : BitVec 4) (p : BitVec 1) (q : BitVec 1) (f : BitVec 1)
  /-- VAND: Bitwise AND of element bits (R350) -/
  | vand (i : BitVec 3) (d : BitVec 4) (a : BitVec 4) (b : BitVec 5) (s : BitVec 1) (p : BitVec 1) (q : BitVec 1) (r : BitVec 1)
  /-- VOR: Bitwise OR of element bits (R350) -/
  | vor (i : BitVec 3) (d : BitVec 4) (a : BitVec 4) (b : BitVec 5) (s : BitVec 1) (p : BitVec 1) (q : BitVec 1) (r : BitVec 1)
  /-- VXOR: Bitwise XOR of element bits (R350) -/
  | vxor (i : BitVec 3) (d : BitVec 4) (a : BitVec 4) (b : BitVec 5) (s : BitVec 1) (p : BitVec 1) (q : BitVec 1) (r : BitVec 1)
  /-- VSHL: Lane-wise integer shift left (R350) -/
  | vshl (i : BitVec 3) (d : BitVec 4) (a : BitVec 4) (b : BitVec 5) (s : BitVec 1) (p : BitVec 1) (q : BitVec 1) (r : BitVec 1)
  /-- VSHR: Lane-wise logical or arithmetic shift right (R350) -/
  | vshr (i : BitVec 3) (d : BitVec 4) (a : BitVec 4) (b : BitVec 5) (s : BitVec 1) (p : BitVec 1) (q : BitVec 1) (r : BitVec 1) (f : BitVec 1)
  /-- VCMP: Lane-wise comparison writing 1 or 0 to an integer tile (R358) -/
  | vcmp (i : BitVec 3) (d : BitVec 4) (a : BitVec 4) (b : BitVec 5) (s : BitVec 1) (p : BitVec 1) (q : BitVec 1) (r : BitVec 1) (f : BitVec 3)
  /-- VSEL: Selects a or b per lane by d's mask (R358) -/
  | vsel (i : BitVec 3) (d : BitVec 4) (a : BitVec 4) (b : BitVec 5) (s : BitVec 1) (p : BitVec 1) (q : BitVec 1) (r : BitVec 1)
  /-- VRED: Reduces a row and writes the result to every lane of d (R354) -/
  | vred (i : BitVec 3) (d : BitVec 4) (a : BitVec 4) (p : BitVec 1) (q : BitVec 1) (f : BitVec 3)
  /-- VSCAN: Inclusive or exclusive prefix scan of a row (R354) -/
  | vscan (i : BitVec 3) (d : BitVec 4) (a : BitVec 4) (p : BitVec 1) (q : BitVec 1) (f : BitVec 2)
  /-- VBCAST: Broadcasts element s of a row to every lane (R357) -/
  | vbcast (i : BitVec 3) (d : BitVec 4) (a : BitVec 4) (b : BitVec 5) (p : BitVec 1) (q : BitVec 1)
  /-- VIOTA: Writes i + s to lane i (R357) -/
  | viota (i : BitVec 3) (d : BitVec 4) (b : BitVec 5) (p : BitVec 1)
  /-- VPERM: Permutes a row by an index tile or rotates it by a scalar (R357) -/
  | vperm (i : BitVec 3) (d : BitVec 4) (a : BitVec 4) (b : BitVec 5) (s : BitVec 1) (p : BitVec 1) (q : BitVec 1) (r : BitVec 1)
  /-- VSORTK: Stably sorts a row of keys and writes the original indices to tile b (R355) -/
  | vsortk (i : BitVec 3) (d : BitVec 4) (a : BitVec 4) (b : BitVec 4) (p : BitVec 1) (q : BitVec 1) (r : BitVec 1) (f : BitVec 1)
  /-- VSEGR: Reduces runs of equal keys, or lists the run keys (R356) -/
  | vsegr (i : BitVec 3) (d : BitVec 4) (a : BitVec 4) (b : BitVec 4) (p : BitVec 1) (q : BitVec 1) (r : BitVec 1) (f : BitVec 2)
  /-- VEXP2: Correctly rounded 2^a per lane (R353) -/
  | vexp2 (i : BitVec 3) (d : BitVec 4) (a : BitVec 4) (p : BitVec 1) (q : BitVec 1)
  /-- VRCP: Correctly rounded reciprocal per lane (R353) -/
  | vrcp (i : BitVec 3) (d : BitVec 4) (a : BitVec 4) (p : BitVec 1) (q : BitVec 1)
  /-- VRSQ: Correctly rounded reciprocal square root per lane (R353) -/
  | vrsq (i : BitVec 3) (d : BitVec 4) (a : BitVec 4) (p : BitVec 1) (q : BitVec 1)
  /-- VCVT: Converts or quantises each element to d's type (R359) -/
  | vcvt (i : BitVec 3) (d : BitVec 4) (a : BitVec 4) (p : BitVec 1) (q : BitVec 1) (f : BitVec 1)
  /-- VRND: Rounds each element to an integral value (R359) -/
  | vrnd (i : BitVec 3) (d : BitVec 4) (a : BitVec 4) (p : BitVec 1) (q : BitVec 1)
  /-- VMOV: Copies a row, with its scales (R359) -/
  | vmov (i : BitVec 3) (d : BitVec 4) (a : BitVec 4) (p : BitVec 1) (q : BitVec 1)
  /-- VMOV_SCALAR: Writes a broadcast scalar element to every lane (R359) -/
  | vmovScalar (i : BitVec 3) (d : BitVec 4) (b : BitVec 5) (p : BitVec 1)
  /-- VTMG: Merges two attention triples held in triple form (R360) -/
  | vtmg (i : BitVec 3) (d : BitVec 4) (a : BitVec 4) (b : BitVec 4) (p : BitVec 1) (q : BitVec 1) (r : BitVec 1)
  /-- MWLD: Loads the inactive weight plane from a ring slot (R369) -/
  | mwld (i : BitVec 3) (k : BitVec 4) (r : BitVec 7)
  /-- MSWP: Swaps the active weight plane at issue (R370) -/
  | mswp (i : BitVec 3)
  /-- MFWD: Streams rows with the grain and accumulates the products (R372) -/
  | mfwd (i : BitVec 3) (a : BitVec 2) (k : BitVec 4) (r : BitVec 7)
  /-- MBWD: Streams BF16 rows across the grain and accumulates the products (R373) -/
  | mbwd (i : BitVec 3) (a : BitVec 2) (k : BitVec 4) (r : BitVec 7)
  /-- MHAD: Applies a Hadamard transform to a tile row (R377) -/
  | mhad (i : BitVec 3) (k : BitVec 4) (n : BitVec 1) (d : BitVec 4)
  /-- MQNT: Quantises a tile row to MXFP8 or OX4 (R378) -/
  | mqnt (i : BitVec 3) (k : BitVec 4) (n : BitVec 1) (d : BitVec 4)
  /-- MDRN: Scales and rounds accumulator rows into a tile, optionally clearing them (R375) -/
  | mdrn (i : BitVec 3) (a : BitVec 2) (k : BitVec 4) (r : BitVec 7) (v : BitVec 1) (z : BitVec 1)
  /-- MCLR: Clears accumulator rows at issue (R376) -/
  | mclr (i : BitVec 3) (a : BitVec 2) (r : BitVec 7)
  /-- TCFG: Configures and zeroes a tile from a shape word (R343) -/
  | tcfg (i : BitVec 3) (x : BitVec 4) (y : BitVec 5)
  /-- TZERO: Zeroes a configured tile and resets its cursor (R343) -/
  | tzero (i : BitVec 3) (x : BitVec 4)
  /-- TRMOV: Copies the cursor row of one tile into the cursor row of another (R344) -/
  | trmov (i : BitVec 3) (x : BitVec 4) (y : BitVec 4) (q : BitVec 1) (p : BitVec 1)
  /-- TRMOV_ROWS: Copies a row chosen by register z between two tiles (R344) -/
  | trmovRows (i : BitVec 3) (x : BitVec 4) (y : BitVec 4) (z : BitVec 5)
  /-- TCMOV: Copies one column between two tiles (R344) -/
  | tcmov (i : BitVec 3) (x : BitVec 4) (y : BitVec 4) (z : BitVec 5)
  /-- TTR: Transposes one tile into another (R345) -/
  | ttr (i : BitVec 3) (x : BitVec 4) (y : BitVec 4)
  /-- TLDV: Loads a value into a tile (R346) -/
  | tldv (i : BitVec 3) (x : BitVec 4) (y : BitVec 5)
  /-- TMKV: Makes a new value of count 1 from a tile (R346) -/
  | tmkv (i : BitVec 3) (x : BitVec 5) (y : BitVec 4)
  /-- DUP: Raises a value's count, or copies the value at the maximum count (R184) -/
  | dup (i : BitVec 3) (x : BitVec 5) (y : BitVec 5)
  /-- DROP: Lowers a value's count; at count 1 the value becomes Cooling (R184) -/
  | drop (i : BitVec 3) (y : BitVec 5)
  /-- REUSE: Turns a value into, or allocates, the pending reuse run (R184) -/
  | reuse (i : BitVec 3) (y : BitVec 5)
  /-- UPD: Updates one element in place, or copies when the value is shared (R347) -/
  | upd (i : BitVec 3) (x : BitVec 5) (y : BitVec 5) (z : BitVec 5)
  /-- UPDR: Updates one row in place, or copies when the value is shared (R347) -/
  | updr (i : BitVec 3) (x : BitVec 5) (y : BitVec 5) (z : BitVec 4) (f : BitVec 1)
  /-- CNT: Returns a value's count, or 0 for a Cooling value (R184) -/
  | cnt (i : BitVec 3) (x : BitVec 5) (y : BitVec 5)
  /-- LD: Loads a scalar from global, scratchpad or cohort space (R385) -/
  | ld (i : BitVec 3) (d : BitVec 5) (b : BitVec 5) (x : BitVec 5) (p : BitVec 2) (g : BitVec 1) (z : BitVec 2)
  /-- LDG: Loads a scalar through a generic pointer (R385) -/
  | ldg (i : BitVec 3) (d : BitVec 5) (b : BitVec 5) (x : BitVec 5) (g : BitVec 1) (z : BitVec 2)
  /-- LDT: Loads a tile image, or a result record into triple form (R386) -/
  | ldt (i : BitVec 3) (d : BitVec 4) (b : BitVec 5) (x : BitVec 5) (p : BitVec 2) (v : BitVec 1) (t : BitVec 1)
  /-- LDR: Loads the cursor row of a tile (R386) -/
  | ldr (i : BitVec 3) (d : BitVec 4) (b : BitVec 5) (x : BitVec 5) (p : BitVec 2) (n : BitVec 1)
  /-- LDTR: Transposing load that decodes MXFP8 into BF16 (R387) -/
  | ldtr (i : BitVec 3) (d : BitVec 4) (b : BitVec 5) (x : BitVec 5)
  /-- GTH: Gathers table rows into a tile through an index list (R388) -/
  | gth (i : BitVec 3) (d : BitVec 4) (b : BitVec 5) (l : BitVec 5) (p : BitVec 2)
  /-- LDV: Makes a value from memory (R389) -/
  | ldv (i : BitVec 3) (d : BitVec 5) (b : BitVec 5) (h : BitVec 5) (p : BitVec 2)
  /-- ST: Stores a scalar to global, scratchpad or cohort space (R391) -/
  | st (i : BitVec 3) (s : BitVec 5) (b : BitVec 5) (x : BitVec 5) (p : BitVec 2) (z : BitVec 2)
  /-- STG: Stores a scalar through a generic pointer (R391) -/
  | stg (i : BitVec 3) (s : BitVec 5) (b : BitVec 5) (x : BitVec 5) (z : BitVec 2)
  /-- STT: Stores a tile image, optionally narrowed to BF16 (R391) -/
  | stt (i : BitVec 3) (s : BitVec 4) (b : BitVec 5) (x : BitVec 5) (p : BitVec 2) (n : BitVec 1)
  /-- STV: Writes a value's bytes to global memory (R392) -/
  | stv (i : BitVec 3) (s : BitVec 5) (b : BitVec 5) (x : BitVec 5)
  /-- SCT: Scatters tile rows to table rows through an index list (R388) -/
  | sct (i : BitVec 3) (s : BitVec 4) (b : BitVec 5) (l : BitVec 5) (p : BitVec 2)
  /-- RED: Sends one return-free reduction record with a scalar operand (R393) -/
  | red (i : BitVec 3) (s : BitVec 5) (b : BitVec 5) (x : BitVec 5) (o : BitVec 3)
  /-- RED_ROW: Sends one reduction record per element of a tile row (R393) -/
  | redRow (i : BitVec 3) (s : BitVec 4) (b : BitVec 5) (x : BitVec 5) (n : BitVec 1) (o : BitVec 3)
  /-- KVA: Appends one token to a KV page (R395) -/
  | kva (i : BitVec 3) (d : BitVec 5) (b : BitVec 5) (k : BitVec 5)
  /-- KVR: Requests a rescale, fork or release of a KV page (R396) -/
  | kvr (i : BitVec 3) (d : BitVec 5) (a : BitVec 5) (k : BitVec 5) (o : BitVec 2)
  /-- BWS: Stages a tile into a breakwater contributor (R399) -/
  | bws (i : BitVec 3) (s : BitVec 4) (g : BitVec 5)
  /-- BWC: Commits a breakwater contributor (R399) -/
  | bwc (i : BitVec 3) (g : BitVec 5)
  /-- BWA: Zeroes and unbinds a breakwater contributor (R399) -/
  | bwa (i : BitVec 3) (g : BitVec 5)
  /-- FENCE: Orders the core's untimed accesses at a scope (R412) -/
  | fence (i : BitVec 3) (c : BitVec 3) (o : BitVec 2)
  /-- LDAQ: Loads one unit, relaxed or with acquire, at a scope (R413) -/
  | ldaq (i : BitVec 3) (d : BitVec 5) (a : BitVec 5) (g : BitVec 1) (z : BitVec 2) (c : BitVec 3) (o : BitVec 2)
  /-- STRL: Stores one unit, relaxed or with release, at a scope (R413) -/
  | strl (i : BitVec 3) (z : BitVec 2) (a : BitVec 5) (b : BitVec 5) (c : BitVec 3) (o : BitVec 2)
  /-- ATOM: Atomic read-modify-write that returns the old value (R414) -/
  | atom (i : BitVec 3) (d : BitVec 5) (a : BitVec 5) (w : BitVec 1) (p : BitVec 4) (c : BitVec 3) (o : BitVec 2)
  /-- CAS: Compare-and-swap of an 8-byte unit (R415) -/
  | cas (i : BitVec 3) (d : BitVec 5) (a : BitVec 5) (b : BitVec 5) (c : BitVec 3) (o : BitVec 2)
  /-- RLK: Gate-class read-lock acquisition (R416) -/
  | rlk (i : BitVec 3) (a : BitVec 5) (c : BitVec 3) (o : BitVec 2)
  /-- RUL: Releases a read lock (R417) -/
  | rul (i : BitVec 3) (a : BitVec 5) (c : BitVec 3) (o : BitVec 2)
  /-- WLK: Gate-class write-lock acquisition with registration (R416) -/
  | wlk (i : BitVec 3) (a : BitVec 5) (c : BitVec 3) (o : BitVec 2)
  /-- WUL: Releases a write lock (R417) -/
  | wul (i : BitVec 3) (a : BitVec 5) (c : BitVec 3) (o : BitVec 2)
  /-- BAR: Gate-class barrier over the whole gang or a range of its cores (R419) -/
  | bar (i : BitVec 3) (a : BitVec 5) (c : BitVec 3) (o : BitVec 2)
  /-- SIGF: Signals a flag on this core or another core (R421) -/
  | sigf (i : BitVec 3) (f : BitVec 5) (a : BitVec 5) (c : BitVec 3) (o : BitVec 2)
  /-- WAITF: Gate-class wait until a flag reaches a target (R422) -/
  | waitf (i : BitVec 3) (f : BitVec 5) (a : BitVec 5) (c : BitVec 3) (o : BitVec 2)
  /-- RRES: Reserves the next ring slot (R423) -/
  | rres (i : BitVec 3) (d : BitVec 5) (k : BitVec 4)
  /-- RPUB: Publishes a reserved ring slot (R423) -/
  | rpub (i : BitVec 3) (a : BitVec 5) (k : BitVec 4)
  /-- RCON: Gate-class consumption of the next published slot (R424) -/
  | rcon (i : BitVec 3) (d : BitVec 5) (k : BitVec 4)
  /-- RREL: Releases a consumed ring slot (R423) -/
  | rrel (i : BitVec 3) (a : BitVec 5) (k : BitVec 4)
  /-- FILL: Fills a future cell once (R425) -/
  | fill (i : BitVec 3) (a : BitVec 5) (b : BitVec 5) (c : BitVec 3) (o : BitVec 2)
  /-- TAKE: Gate-class wait for a full future, then reads its value (R426) -/
  | take (i : BitVec 3) (d : BitVec 5) (a : BitVec 5) (c : BitVec 3) (o : BitVec 2)
  /-- SPAWN: Places a task record in one of the function's work queues (R427) -/
  | spawn (i : BitVec 3) (d : BitVec 5) (a : BitVec 5) (b : BitVec 5)
  /-- RFENCE: Completes when all earlier near-memory requests are acknowledged (R428) -/
  | rfence (i : BitVec 3)
  /-- SEND: Sends a tile along a mesh route into the destination core's k15 (R429) -/
  | send (i : BitVec 3) (t : BitVec 4) (h : BitVec 2) (j : BitVec 2) (k : BitVec 2) (l : BitVec 2) (m : BitVec 2) (n : BitVec 2) (o : BitVec 2) (p : BitVec 2)
  /-- CSRR: Reads a status register (R321) -/
  | csrr (i : BitVec 3) (d : BitVec 5) (n : BitVec 15)
  /-- CSRW: Writes a status register, with its range checks (R321) -/
  | csrw (i : BitVec 3) (a : BitVec 5) (n : BitVec 15)
  /-- TRAP: Raises trap 0x1A with an immediate code (R322) -/
  | trap (i : BitVec 3) (m : BitVec 15)
  /-- RETH: Passes control to the next handler, or resumes the gang at a resume tide (R323) -/
  | reth (i : BitVec 3) (a : BitVec 5)
  /-- FMTW: Pushes a format word into the matrix format queue (R324) -/
  | fmtw (i : BitVec 3) (a : BitVec 5)
  /-- ECMD: Checks and posts an engine command (R328) -/
  | ecmd (i : BitVec 3) (a : BitVec 5)
  /-- CHL: Links a chain slot to an entry (R329) -/
  | chl (i : BitVec 3) (a : BitVec 5) (j : BitVec 3)
  /-- CHK: Starts a linked chain slot running (R329) -/
  | chk (i : BitVec 3) (j : BitVec 3)
  /-- CHK_STOP: Stops a chain slot once its current entry retires (R329) -/
  | chkStop (i : BitVec 3) (j : BitVec 3)
  /-- AQP: Posts an attention query and reserves one result slot per page (R401) -/
  | aqp (i : BitVec 3) (a : BitVec 5) (b : BitVec 1)
  /-- KVTL: Loads a KV translation segment, optionally locked (R402) -/
  | kvtl (i : BitVec 3) (a : BitVec 5) (l : BitVec 1) (n : BitVec 4)
  /-- KVTU: Unlocks a KV translation segment (R402) -/
  | kvtu (i : BitVec 3) (n : BitVec 4)
  /-- BWO: Checks a group descriptor and asks the host base die to open the group (R403) -/
  | bwo (i : BitVec 3) (a : BitVec 5) (d : BitVec 5)
  /-- OPTS: Checks an optimiser descriptor and posts the step to the base die (R404) -/
  | opts (i : BitVec 3) (a : BitVec 5)
  /-- CKPT: Records a checkpoint region and shields the gang until the commit (R332) -/
  | ckpt (i : BitVec 3) (a : BitVec 5)
  /-- TALIGN: Gate-class wait until the tide reaches a target (R331) -/
  | talign (i : BitVec 3) (a : BitVec 5)
  /-- TALIGN_M: Gate-class wait until the tide is a multiple of a (R331) -/
  | talignM (i : BitVec 3) (a : BitVec 5)
  /-- BAR2_ACCESS: A host read or write through a virtual function's BAR2 reaches the partition's packed device ranges, or reads zero and is dropped and counted in PERR beyond them, or for an unbound function (R61) -/
  | bar2Access (vf off : Nat) (write : Bool) (data : List Byte)
  /-- FETCH: Each core fetches up to four words per tc from its Live rows into the queues named by their E fields, holding when a queue is full and freeing rows it has passed to the successor (R123) -/
  | fetch (core : Nat)
  /-- ILLEGAL_WORD: A word with OP 0x00, an unassigned OP, a misplaced GUARD or a nonzero reserved field traps precisely with 0x01 or 0x02 when it would issue, and no word of its issue group issues (R300) -/
  | illegalWord (core e : Nat) (code : Byte) (info : W64)
  /-- TIMED_FLIT_ARRIVAL: A timed flit leaves a die-edge link 40 tc after entry, or 84 tc after entry through a relay (R28) -/
  | timedFlitArrival
  /-- NEAR_MEMORY_ACK: The acknowledgement of a RED, KVA, KVR, BWS, BWC or BWA request lands at its core; an error acknowledgement faults at the waiting release or RFENCE (R207) -/
  | nearMemoryAck
  /-- FLR_PF0: A function-level reset of PF0 resets only PF0's event-queue and mailbox registers (R64) -/
  | flrPf0
  /-- RED_RECORD_APPLY: A base die applies an accepted reduction record to its 32-bit target in arrival order (R222) -/
  | redRecordApply
  /-- KV_APPEND: A base die applies an append, with or without START, to a KV page after its checks (R227) -/
  | kvAppend
  /-- KV_RESCALE: A base die rescales a KV page's K or V elements to a larger scale (R227) -/
  | kvRescale
  /-- KV_FORK: A base die raises a page's SHARE, or copies the page to D when SHARE is at its maximum (R227) -/
  | kvFork
  /-- KV_RELEASE: A base die lowers a page's SHARE, and at zero clears FILL and advances TAG (R227) -/
  | kvRelease
  /-- PAGE_SCAN_QUEUED: A Posted page scan becomes Queued once the core's earlier appends to the page are acknowledged (R231) -/
  | pageScanQueued
  /-- PAGE_SCAN_START: A bank unit reads FILL and the header and scans the page's tokens (R232) -/
  | pageScanStart
  /-- RESULT_RECORD_LANDING: A page's 528-byte result record lands in its reserved slot and is published (R233) -/
  | resultRecordLanding
  /-- GROUP_OPEN: The host base die opens a breakwater group and reserves staging, or answers OK, FULL or FAILED_FAULT (R239) -/
  | groupOpen
  /-- BWS_ACCEPT: The base die adds a staged tile into the contributor's staging, or records a violation (R240) -/
  | bwsAccept
  /-- BWC_ACCEPT: The base die moves a contributor to Measuring, or records a violation (R242) -/
  | bwcAccept
  /-- BWA_ACCEPT: The base die zeroes a contributor's staging and unbinds it (R242) -/
  | bwaAccept
  /-- PHASE_TWO: Once every contributor is settled, the scaled contributions are applied to DST in ascending contributor id, or nothing is written (R244) -/
  | phaseTwo
  /-- GROUP_COMPLETION: The group completion record is written as a device-scope release, the flag is signalled and the group becomes Free (R246) -/
  | groupCompletion
  /-- GROUP_EXPIRY: A group Open longer than the watchdog after its last request completes with FAILED_FAULT and 0x1B (R251) -/
  | groupExpiry
  /-- OPTS_STEP: An accepted OPTS acquires its group's completion and runs the Adam update over its arrays in the base die (R254) -/
  | optsStep
  /-- SEND_ARRIVAL: A SEND tile's head flit reserves a k15 slot, and the tile lands and is published at the landing + 1 (R430) -/
  | sendArrival
  /-- FLAG_SIGNAL_ARRIVAL: A signal from another core or a group arrives and increments the flag, or is dropped and counted in PERR (R421) -/
  | flagSignalArrival
  /-- BARRIER_ARRIVAL: A core's barrier arrival message reaches the other cores concerned in the timed class (R419) -/
  | barrierArrival
  deriving DecidableEq, Repr

end Sys2Proof
end

