-- ==== Sys2Proof/WellFormed.lean ====
section
/-!
DEFINITION. Which instructions an encoding can hold (R294): the codes that each word assigns, the
unused bits that must be zero, and, for the steps of the package, the ranges of what they name.
-/

namespace Sys2Proof

/-- The status registers that R319 numbers. -/
def csrAssigned (n : Nat) : Bool :=
  n ≤ 0x05 || n == 0x08 || n == 0x09 || (0x10 ≤ n && n ≤ 0x1B) || (0x20 ≤ n && n ≤ 0x24) ||
  (0x40 ≤ n && n ≤ 0x4F) || (0x80 ≤ n && n ≤ 0x9F) || (0xA0 ≤ n && n ≤ 0xA7)

/-- The position of the first turn that makes a route ill-formed (R292, R462), from the list of
(position, turn) pairs, or none: one eject, and zeros after it. -/
def routeBad : List (Nat × Nat) → Option Nat
  | [] => some 0
  | (_, t) :: rest =>
    if t = 3 then (rest.find? (fun q => q.2 != 0)).map Prod.fst else routeBad rest

/-- The turns of a SEND as (position, turn) pairs. -/
def sendTurns (j k l m n o p : BitVec 2) : List (Nat × Nat) :=
  [(12, j.toNat), (10, k.toNat), (8, l.toNat), (6, m.toNat), (4, n.toNat), (2, o.toNat),
   (0, p.toNat)]

/-- A V operand b: a tile index with bsel 0, a scalar without post-increment with bsel 1 (R288). -/
def vOperandOk (b : BitVec 5) (s r : BitVec 1) : Bool :=
  if s = 0 then b.toNat < 16 else r == 0

/-- Scopes 0 to 4 (R294). -/
def scopeOk (c : BitVec 3) : Bool := c.toNat ≤ 4

/-- Orders of a load (R408): relaxed or acquire. -/
def acqOk (o : BitVec 2) : Bool := o.toNat ≤ 1

/-- Orders of a store (R408): relaxed or release. -/
def relOk (o : BitVec 2) : Bool := o == 0 || o == 2

/-- The spaces of an L or W word: global, scratchpad, cohort (R381). -/
def spaceOk (p : BitVec 2) : Bool := p.toNat < 3

/-- A size with sign extension: SX with 8 bytes is reserved (R384). -/
def sizeOk (g : BitVec 1) (z : BitVec 2) : Bool := !(g == 1 && z == 3)

/-- Core, virtual function, queue, partition and PCIe function numbers of the package. -/
def coreOk (c : Nat) : Bool := c < 256
def vfOk (vf : Nat) : Bool := 1 ≤ vf && vf ≤ 256
def queueOk (q : Nat) : Bool := q < 512
def partOk (p : Nat) : Bool := p < 32
def funcOk (f : Nat) : Bool := f ≤ 256

/-- Well-formed instructions. -/
def Instr.wf : Instr → Bool
  | .packageReset _ | .tideCompare _ | .powerWindow _ | .thermalSample _ | .rcvgo _
  | .recoveryImageRead _ | .timedFlitArrival | .nearMemoryAck
  | .ethernetTransferComplete _ _ | .plimitWrite _ | .kvsplitWrite _ | .flrPf0
  | .kernelNode _ | .copyNode _ | .copyNodeComplete _ | .signalNode _ | .waitNode _
  | .waitNodeReread _ | .waitNodeTimeout _ | .conditionalNode _ | .loopNode _ | .joinNode _
  | .graphComplete _ | .reservationCandidate _ | .gangStart _ | .preemptionStop _
  | .coreRelease _ | .runmaxExpiry _ | .slipWatchdogExpiry _ | .gangEnd _ | .taskComplete _
  | .slipPlane _ | .slipResume _ | .handlerStart _ | .gangResume _ | .redRecordApply
  | .kvAppend | .kvRescale | .kvFork | .kvRelease | .pageScanQueued
  | .pageScanStart | .resultRecordLanding | .groupOpen | .bwsAccept | .bwcAccept
  | .bwaAccept | .phaseTwo | .groupCompletion | .groupExpiry | .optsStep
  | .sendArrival | .flagSignalArrival | .barrierArrival => true
  | .uncorrectableFlit edge _ => edge < 4
  | .stationDown n => n < 16
  | .ethernetPortDown p => p < 8
  | .inboxWrite a _ | .inboxRead a _ | .inboxAtomic a => 0xFFFFFFFF0000 ≤ a.toNat
  | .inboxWriteSend c home => coreOk c && home < 1024
  | .remoteAccess r => r.addr < 2 ^ 48
  | .partitionConfigWrite p off _ => partOk p && off < 256
  | .pcmdStart p | .pcmdReset p | .firmwarePartitionReset p | .partitionResetComplete p => partOk p
  | .keyOwnerWrite slot _ => slot < 2048
  | .inboxBindingWrite e _ => e < 32768
  | .attest fn | .loadkey fn | .clearkey fn | .getcert fn => funcOk fn
  | .qcfgWrite vf q _ | .qtailWrite vf q _ | .qbaseWrite vf q _ | .taskTake vf q
  | .spillMove vf q => vfOk vf && queueOk q
  | .ovsizeWrite vf _ | .xigo vf _ | .invalidationDone vf | .flrVf vf | .flrVfComplete vf =>
    vfOk vf
  | .eqsizeWrite fn _ | .evack fn _ | .registerWrite fn _ _ => funcOk fn
  | .coreRetirement c | .haltWatchdogExpiry c | .gateWatchdogExpiry c | .presenceCheck c
  | .freezeArrival c | .gateArrival c | .gateOpen c | .translationWalkDone c | .lockAttempt c
  | .takeRead c | .fetch c => coreOk c
  | .bankRemapCommand b _ | .bankRefresh b | .bankRemapComplete b _ _ => b < 131072
  | .admissionDecision die => die < 4
  | .rowLoadComplete c _ | .globalLoadLanding c _ | .globalWriteAck c _
  | .statusReplyLanding c _ | .engineCommandStart c _ | .engineCommandRetire c _ => coreOk c
  | .coolingReclaim c b => coreOk c && b < 1024
  | .chainEntryFetch c j => coreOk c && j < 8
  | .tileReloadComplete c t => coreOk c && t < 16
  | .phaseOne _ c => c < 16
  | .bar2Access vf _ _ _ => vfOk vf
  | .illegalWord c e code _ => coreOk c && e < 8 && (code == 1 || code == 2)
  -- S engine (R310 to R318)
  | .add .. | .sub .. | .addi .. | .mul .. | .mulh .. | .div .. | .and .. | .or .. | .xor ..
  | .andi .. | .ori .. | .xori .. | .shl .. | .shlImm .. | .shr .. | .shrImm .. | .sar ..
  | .sarImm .. | .min .. | .max .. | .clz .. | .popc .. | .sel .. | .li .. | .lsi .. | .spt ..
  | .spc .. | .loopReg .. | .endl .. | .nop .. | .halt .. | .bfx .. | .bfi .. => true
  | .cmp _ _ _ _ c => c.toNat ≤ 5
  | .loop _ c _ => c != 0
  -- universal words (R271, R295 to R297)
  | .gate .. | .wait .. | .guard .. => true
  | .rmode e _ _ m => (e == 1 || e == 2 || e == 5) && m.toNat ≤ 5
  -- V engine (R350)
  | .vadd _ _ _ b s _ _ r _ | .vsub _ _ _ b s _ _ r _ | .vmul _ _ _ b s _ _ r _
  | .vshr _ _ _ b s _ _ r _ => vOperandOk b s r
  | .vfma _ _ _ b s _ _ r f => vOperandOk b s r && f != 3
  | .vmax _ _ _ b s _ _ r | .vmin _ _ _ b s _ _ r | .vand _ _ _ b s _ _ r
  | .vor _ _ _ b s _ _ r | .vxor _ _ _ b s _ _ r | .vshl _ _ _ b s _ _ r
  | .vsel _ _ _ b s _ _ r | .vperm _ _ _ b s _ _ r => vOperandOk b s r
  | .vcmp _ _ _ b s _ _ r f => vOperandOk b s r && f.toNat ≤ 5
  | .vred _ _ _ _ _ f => f.toNat ≤ 5
  | .vabs .. | .vneg .. | .vscan .. | .vbcast .. | .viota .. | .vsortk .. | .vsegr ..
  | .vexp2 .. | .vrcp .. | .vrsq .. | .vcvt .. | .vrnd .. | .vmov .. | .vmovScalar ..
  | .vtmg .. => true
  -- M engine (R363)
  | .mwld .. | .mswp .. | .mfwd .. | .mbwd .. | .mhad .. | .mqnt .. | .mdrn .. | .mclr .. => true
  -- T engine (R342)
  | .tcfg .. | .tzero .. | .trmov .. | .trmovRows .. | .tcmov .. | .tldv .. | .tmkv .. | .dup ..
  | .drop .. | .reuse .. | .upd .. | .updr .. | .cnt .. => true
  | .ttr _ x y => x != y
  -- L and W engines (R384, R390)
  | .ld _ _ _ _ p g z => spaceOk p && sizeOk g z
  | .ldg _ _ _ _ g z => sizeOk g z
  | .ldt _ _ _ _ p v t => spaceOk p && (v == 0 || t == 1) && (t == 0 || p == 1)
  | .ldr _ _ _ _ p _ => spaceOk p
  | .gth _ _ _ _ p | .ldv _ _ _ _ p | .sct _ _ _ _ p => p.toNat < 2
  | .st _ _ _ _ p _ | .stt _ _ _ _ p _ => spaceOk p
  | .ldtr .. | .stg .. | .stv .. | .red .. | .redRow .. | .kva .. | .kvr .. | .bws .. | .bwc ..
  | .bwa .. => true
  -- Y engine (R408)
  | .fence _ c o => scopeOk c && o != 0
  | .ldaq _ _ _ g z c o => sizeOk g z && scopeOk c && acqOk o
  | .strl _ _ _ _ c o | .rul _ _ c o | .wul _ _ c o | .sigf _ _ _ c o | .fill _ _ _ c o =>
    scopeOk c && relOk o
  | .atom _ _ _ _ p c _ => p.toNat ≤ 8 && scopeOk c
  | .cas _ _ _ _ c _ | .bar _ _ c _ => scopeOk c
  | .rlk _ _ c o | .wlk _ _ c o | .waitf _ _ _ c o | .take _ _ _ c o => scopeOk c && acqOk o
  | .rres .. | .rpub .. | .rcon .. | .rrel .. | .spawn .. | .rfence .. => true
  | .send _ _ _ j k l m n o p => (routeBad (sendTurns j k l m n o p)).isNone
  -- X engine (R319 to R332, R400)
  | .csrr _ _ n | .csrw _ _ n => csrAssigned n.toNat
  | .trap .. | .reth .. | .fmtw .. | .ecmd .. | .chl .. | .chk .. | .chkStop .. | .aqp ..
  | .kvtl .. | .kvtu .. | .bwo .. | .opts .. | .ckpt .. | .talign .. | .talignM .. => true

end Sys2Proof
end

