-- ==== Sys2Proof/Decode.lean ====
section
/-!
DEFINITION. Decoding a 32-bit word into an instruction or into the fate that R300 gives it, and the
encoder, both written from the layouts of R285 to R299 and of each word's own rule.
-/

namespace Sys2Proof

/-- What a word is (R300): an instruction, an illegal word (0x01), or a word with an offending
reserved field, with the bit position that R462 reports (0x02). -/
inductive Fate where
  | instr (i : Instr)
  | illegal
  | reserved (pos : Nat)
  deriving DecidableEq, Repr

def Fate.toOption : Fate → Option Instr
  | .instr i => some i
  | _ => none

/-- The `len` bits of `x` from bit `lo`. -/
def bf (x lo len : Nat) : BitVec len := BitVec.ofNat len (x / 2 ^ lo)

/-- The first offending field in layout order (R462): each entry is a reported position and whether
the field is accepted. -/
def checked : List (Nat × Bool) → Instr → Fate
  | [], i => .instr i
  | (p, ok) :: rest, i => if ok then checked rest i else .reserved p

/-- A field that must be zero, reported at its lowest bit. -/
def zeroField (x lo len : Nat) : Nat × Bool := (lo, x / 2 ^ lo % 2 ^ len == 0)

/-- Operands of the S engine (R287, R310, R314). -/
def decodeS (op x : Nat) : Fate :=
  let i := bf x 26 3
  let d := bf x 15 5
  let a := bf x 10 5
  let b := bf x 5 5
  let fn := x % 32
  let imm := bf x 0 10
  let fn0 := zeroField x 0 5
  let b0 := zeroField x 5 5
  match op with
  | 0x01 => checked [fn0] (.add i d a b)
  | 0x02 => checked [fn0] (.sub i d a b)
  | 0x03 => .instr (.addi i d a imm)
  | 0x04 => checked [fn0] (.mul i d a b)
  | 0x05 => checked [(0, decide (fn < 2))] (.mulh i d a b (bf x 0 1))
  | 0x06 => checked [(0, decide (fn < 4))] (.div i d a b (bf x 0 2))
  | 0x07 => checked [fn0] (.and i d a b)
  | 0x08 => checked [fn0] (.or i d a b)
  | 0x09 => checked [fn0] (.xor i d a b)
  | 0x0A => .instr (.andi i d a imm)
  | 0x0B => .instr (.ori i d a imm)
  | 0x0C => .instr (.xori i d a imm)
  | 0x0D => if fn / 2 = 8 then .instr (.shlImm i d a b (bf x 0 1)) else checked [fn0] (.shl i d a b)
  | 0x0E => if fn / 2 = 8 then .instr (.shrImm i d a b (bf x 0 1)) else checked [fn0] (.shr i d a b)
  | 0x0F => if fn / 2 = 8 then .instr (.sarImm i d a b (bf x 0 1)) else checked [fn0] (.sar i d a b)
  | 0x10 => checked [(0, decide (fn < 2))] (.min i d a b (bf x 0 1))
  | 0x11 => checked [(0, decide (fn < 2))] (.max i d a b (bf x 0 1))
  | 0x12 => checked [b0, fn0] (.clz i d a)
  | 0x13 => checked [b0, fn0] (.popc i d a)
  | 0x14 => checked [(0, decide (fn ≤ 5))] (.cmp i d a b (bf x 0 5))
  | 0x15 => .instr (.sel i d a b (bf x 0 5))
  | 0x16 => .instr (.li i d (bf x 0 15))
  | 0x17 => .instr (.lsi i d (bf x 0 15))
  | 0x18 => checked [b0, fn0] (.spt i d a)
  | 0x19 => checked [b0, (0, decide (fn < 2))] (.spc i d a (bf x 0 1))
  | 0x1A =>
    if x / 2 ^ 19 % 2 = 1 then checked [zeroField x 13 6] (.loopReg i (bf x 10 3) (bf x 0 10))
    else checked [(10, x / 2 ^ 10 % 512 != 0)] (.loop i (bf x 10 9) (bf x 0 10))
  | 0x1B => checked [zeroField x 0 20] (.endl i)
  | 0x1C => checked [zeroField x 0 20] (.nop i)
  | 0x1D => checked [zeroField x 0 20] (.halt i)
  | 0x1E => checked [(0, decide (fn < 2))] (.bfx i d a b (bf x 0 1))
  | 0x1F => checked [fn0] (.bfi i d a b)
  | _ => .illegal

/-- `RMODE` (R271). -/
def decodeRmode (e x : Nat) : Fate :=
  checked [zeroField x 4 16, (0, x % 8 ≤ 5)]
    (.rmode (BitVec.ofNat 3 e) (bf x 26 3) (bf x 3 1) (bf x 0 3))

/-- Operands of the V engine (R288, R348, R350). -/
def decodeV (op x : Nat) : Fate :=
  let i := bf x 26 3
  let d := bf x 16 4
  let a := bf x 12 4
  let b := bf x 7 5
  let bt := bf x 7 4
  let s := bf x 6 1
  let p := bf x 5 1
  let q := bf x 4 1
  let r := bf x 3 1
  let fn := x % 8
  let fn0 := zeroField x 0 3
  let s0 := zeroField x 6 1
  let s1 : Nat × Bool := (6, x / 64 % 2 == 1)
  let r0 := zeroField x 3 1
  let bTile := zeroField x 11 1
  let bAny : List (Nat × Bool) :=
    [(11, x / 64 % 2 == 1 || x / 2 ^ 11 % 2 == 0), (3, x / 64 % 2 == 0 || x / 8 % 2 == 0)]
  let bBit : Nat × Bool := (11, x / 64 % 2 == 1 || x / 2 ^ 11 % 2 == 0)
  let bNone : List (Nat × Bool) := [zeroField x 7 5, s0, r0]
  match op with
  | 0x01 => checked (bAny ++ [(0, decide (fn < 2))]) (.vadd i d a b s p q r (bf x 0 1))
  | 0x02 => checked (bAny ++ [(0, decide (fn < 2))]) (.vsub i d a b s p q r (bf x 0 1))
  | 0x03 => checked (bAny ++ [(0, decide (fn < 2))]) (.vmul i d a b s p q r (bf x 0 1))
  | 0x04 => checked (bAny ++ [(0, decide (fn < 3))]) (.vfma i d a b s p q r (bf x 0 2))
  | 0x05 => checked (bAny ++ [fn0]) (.vmax i d a b s p q r)
  | 0x06 => checked (bAny ++ [fn0]) (.vmin i d a b s p q r)
  | 0x07 => checked (bNone ++ [(0, decide (fn < 2))]) (.vabs i d a p q (bf x 0 1))
  | 0x08 => checked (bNone ++ [(0, decide (fn < 2))]) (.vneg i d a p q (bf x 0 1))
  | 0x09 => checked (bAny ++ [fn0]) (.vand i d a b s p q r)
  | 0x0A => checked (bAny ++ [fn0]) (.vor i d a b s p q r)
  | 0x0B => checked (bAny ++ [fn0]) (.vxor i d a b s p q r)
  | 0x0C => checked (bAny ++ [fn0]) (.vshl i d a b s p q r)
  | 0x0D => checked (bAny ++ [(0, decide (fn < 2))]) (.vshr i d a b s p q r (bf x 0 1))
  | 0x0E => checked (bAny ++ [(0, decide (fn ≤ 5))]) (.vcmp i d a b s p q r (bf x 0 3))
  | 0x0F => checked (bAny ++ [fn0]) (.vsel i d a b s p q r)
  | 0x10 => checked (bNone ++ [(0, decide (fn ≤ 5))]) (.vred i d a p q (bf x 0 3))
  | 0x11 => checked (bNone ++ [(0, decide (fn < 4))]) (.vscan i d a p q (bf x 0 2))
  | 0x12 => checked [bBit, s1, r0, fn0] (.vbcast i d a b p q)
  | 0x13 => checked [zeroField x 12 4, bBit, s1, zeroField x 4 1, r0, fn0] (.viota i d b p)
  | 0x14 => checked (bAny ++ [fn0]) (.vperm i d a b s p q r)
  | 0x15 => checked [bTile, s0, (0, decide (fn < 2))] (.vsortk i d a bt p q r (bf x 0 1))
  | 0x16 => checked [bTile, s0, (0, decide (fn < 4))] (.vsegr i d a bt p q r (bf x 0 2))
  | 0x17 => checked (bNone ++ [fn0]) (.vexp2 i d a p q)
  | 0x18 => checked (bNone ++ [fn0]) (.vrcp i d a p q)
  | 0x19 => checked (bNone ++ [fn0]) (.vrsq i d a p q)
  | 0x1A => checked (bNone ++ [(0, decide (fn < 2))]) (.vcvt i d a p q (bf x 0 1))
  | 0x1B => checked (bNone ++ [fn0]) (.vrnd i d a p q)
  | 0x1C =>
    if x / 64 % 2 = 1 then
      checked [zeroField x 12 4, zeroField x 4 1, r0, fn0] (.vmovScalar i d b p)
    else checked (bNone ++ [fn0]) (.vmov i d a p q)
  | 0x1D => checked [bTile, s0, fn0] (.vtmg i d a bt p q r)
  | 0x1E => decodeRmode 1 x
  | _ => .illegal

/-- Operands of the M engine (R289, R363). -/
def decodeM (op x : Nat) : Fate :=
  let i := bf x 26 3
  let a := bf x 18 2
  let k := bf x 14 4
  let r := bf x 7 7
  let acc0 := zeroField x 18 2
  let kn0 := zeroField x 14 4
  let rows0 := zeroField x 7 7
  let fn0 := zeroField x 0 7
  match op with
  | 0x01 => checked [acc0, fn0] (.mwld i k r)
  | 0x02 => checked [acc0, kn0, rows0, fn0] (.mswp i)
  | 0x03 => checked [fn0] (.mfwd i a k r)
  | 0x04 => checked [fn0] (.mbwd i a k r)
  | 0x05 => checked [acc0, rows0, (0, x / 32 % 4 == 0)] (.mhad i k (bf x 4 1) (bf x 0 4))
  | 0x06 => checked [acc0, rows0, (0, x / 32 % 4 == 0)] (.mqnt i k (bf x 4 1) (bf x 0 4))
  | 0x07 => checked [(0, x % 128 < 4)] (.mdrn i a k r (bf x 1 1) (bf x 0 1))
  | 0x08 => checked [kn0, fn0] (.mclr i a r)
  | 0x1E => decodeRmode 2 x
  | _ => .illegal

/-- Operands of the T engine (R290, R342). -/
def decodeT (op x : Nat) : Fate :=
  let i := bf x 26 3
  let xt := bf x 15 4
  let xr := bf x 15 5
  let yt := bf x 10 4
  let yr := bf x 10 5
  let zr := bf x 5 5
  let fn := x % 32
  let x0 := zeroField x 15 5
  let y0 := zeroField x 10 5
  let z0 := zeroField x 5 5
  let fn0 := zeroField x 0 5
  let xTile := zeroField x 19 1
  let yTile := zeroField x 14 1
  match op with
  | 0x01 => checked [xTile, z0, fn0] (.tcfg i xt yr)
  | 0x02 => checked [xTile, y0, z0, fn0] (.tzero i xt)
  | 0x03 =>
    if fn / 4 % 2 = 1 then checked [xTile, yTile, (0, fn == 4)] (.trmovRows i xt yt zr)
    else checked [xTile, yTile, z0, (0, decide (fn < 4))] (.trmov i xt yt (bf x 1 1) (bf x 0 1))
  | 0x04 => checked [xTile, yTile, fn0] (.tcmov i xt yt zr)
  | 0x05 => checked [xTile, yTile, (10, x / 2 ^ 15 % 16 != x / 2 ^ 10 % 16), z0, fn0] (.ttr i xt yt)
  | 0x06 => checked [xTile, z0, fn0] (.tldv i xt yr)
  | 0x07 => checked [yTile, z0, fn0] (.tmkv i xr yt)
  | 0x08 => checked [z0, fn0] (.dup i xr yr)
  | 0x09 => checked [x0, z0, fn0] (.drop i yr)
  | 0x0A => checked [x0, z0, fn0] (.reuse i yr)
  | 0x0B => checked [fn0] (.upd i xr yr zr)
  | 0x0C => checked [zeroField x 9 1, (0, decide (fn < 2))] (.updr i xr yr (bf x 5 4) (bf x 0 1))
  | 0x0D => checked [z0, fn0] (.cnt i xr yr)
  | _ => .illegal

/-- Operands of the L engine (R291, R384). -/
def decodeL (op x : Nat) : Fate :=
  let i := bf x 26 3
  let d := bf x 15 5
  let t := bf x 15 4
  let b := bf x 10 5
  let y := bf x 5 5
  let p := bf x 3 2
  let fn := x % 32
  let dTile := zeroField x 19 1
  match op with
  | 0x01 => checked [(0, fn / 8 < 3 && fn % 8 != 7)] (.ld i d b y p (bf x 2 1) (bf x 0 2))
  | 0x02 => checked [(0, fn < 7)] (.ldg i d b y (bf x 2 1) (bf x 0 2))
  | 0x03 =>
    checked [dTile, (0, fn == 0 || fn == 8 || fn == 16 || fn == 9 || fn == 11)]
      (.ldt i t b y p (bf x 1 1) (bf x 0 1))
  | 0x04 => checked [dTile, (0, fn / 8 < 3 && fn % 8 < 2)] (.ldr i t b y p (bf x 0 1))
  | 0x05 => checked [dTile, (0, fn == 8)] (.ldtr i t b y)
  | 0x06 => checked [dTile, (0, fn == 0 || fn == 8)] (.gth i t b y p)
  | 0x07 => checked [(0, fn == 0 || fn == 8)] (.ldv i d b y p)
  | _ => .illegal

/-- Operands of the W engine (R291, R390). -/
def decodeW (op x : Nat) : Fate :=
  let i := bf x 26 3
  let d := bf x 15 5
  let t := bf x 15 4
  let b := bf x 10 5
  let y := bf x 5 5
  let p := bf x 3 2
  let fn := x % 32
  let dTile := zeroField x 19 1
  let fn0 := zeroField x 0 5
  match op with
  | 0x01 => checked [(0, fn / 8 < 3 && fn % 8 < 4)] (.st i d b y p (bf x 0 2))
  | 0x02 => checked [(0, decide (fn < 4))] (.stg i d b y (bf x 0 2))
  | 0x03 => checked [dTile, (0, fn / 8 < 3 && fn % 8 < 2)] (.stt i t b y p (bf x 0 1))
  | 0x04 => checked [fn0] (.stv i d b y)
  | 0x05 => checked [dTile, (0, fn == 0 || fn == 8)] (.sct i t b y p)
  | 0x06 =>
    if fn / 8 % 2 = 1 then checked [dTile] (.redRow i t b y (bf x 4 1) (bf x 0 3))
    else checked [(0, fn < 8)] (.red i d b y (bf x 0 3))
  | 0x07 => checked [fn0] (.kva i d b y)
  | 0x08 => checked [(0, decide (fn < 4))] (.kvr i d b y (bf x 0 2))
  | 0x09 => checked [dTile, zeroField x 5 5, fn0] (.bws i t b)
  | 0x0A => checked [zeroField x 15 5, zeroField x 5 5, fn0] (.bwc i b)
  | 0x0B => checked [zeroField x 15 5, zeroField x 5 5, fn0] (.bwa i b)
  | 0x1E => decodeRmode 5 x
  | _ => .illegal

/-- Operands of the Y engine (R292, R408). -/
def decodeY (op x : Nat) : Fate :=
  let i := bf x 26 3
  let d := bf x 15 5
  let a := bf x 10 5
  let b := bf x 5 5
  let k := bf x 5 4
  let c := bf x 2 3
  let o := bf x 0 2
  let d0 := zeroField x 15 5
  let a0 := zeroField x 10 5
  let b0 := zeroField x 5 5
  let kRing := zeroField x 9 1
  let sc : Nat × Bool := (2, x / 4 % 8 ≤ 4)
  let acq : List (Nat × Bool) := [sc, (0, x % 4 ≤ 1)]
  let rel : List (Nat × Bool) := [sc, (0, x % 4 == 0 || x % 4 == 2)]
  let none' : List (Nat × Bool) := [zeroField x 2 3, zeroField x 0 2]
  match op with
  | 0x01 => checked [d0, a0, b0, sc, (0, x % 4 != 0)] (.fence i c o)
  | 0x02 =>
    checked ((5, x / 32 % 32 < 7) :: acq) (.ldaq i d a (bf x 7 1) (bf x 5 2) c o)
  | 0x03 => checked ((15, x / 2 ^ 15 % 32 < 4) :: rel) (.strl i (bf x 15 2) a b c o)
  | 0x04 => checked [(5, x / 32 % 16 ≤ 8), sc] (.atom i d a (bf x 9 1) k c o)
  | 0x05 => checked [sc] (.cas i d a b c o)
  | 0x06 => checked (d0 :: b0 :: acq) (.rlk i a c o)
  | 0x07 => checked (d0 :: b0 :: rel) (.rul i a c o)
  | 0x08 => checked (d0 :: b0 :: acq) (.wlk i a c o)
  | 0x09 => checked (d0 :: b0 :: rel) (.wul i a c o)
  | 0x0A => checked [d0, b0, sc] (.bar i a c o)
  | 0x0B => checked (b0 :: rel) (.sigf i d a c o)
  | 0x0C => checked (b0 :: acq) (.waitf i d a c o)
  | 0x0D => checked (a0 :: kRing :: none') (.rres i d k)
  | 0x0E => checked (d0 :: kRing :: none') (.rpub i a k)
  | 0x0F => checked (a0 :: kRing :: none') (.rcon i d k)
  | 0x10 => checked (d0 :: kRing :: none') (.rrel i a k)
  | 0x11 => checked (d0 :: rel) (.fill i a b c o)
  | 0x12 => checked (b0 :: acq) (.take i d a c o)
  | 0x13 => checked none' (.spawn i d a b)
  | 0x14 => checked (d0 :: a0 :: b0 :: none') (.rfence i)
  | 0x15 =>
    let turns := sendTurns (bf x 12 2) (bf x 10 2) (bf x 8 2) (bf x 6 2) (bf x 4 2) (bf x 2 2)
      (bf x 0 2)
    match routeBad turns with
    | some p => .reserved p
    | none => .instr (.send i (bf x 16 4) (bf x 14 2) (bf x 12 2) (bf x 10 2) (bf x 8 2) (bf x 6 2)
        (bf x 4 2) (bf x 2 2) (bf x 0 2))
  | _ => .illegal

/-- Operands of the X engine (R293, R319 to R332, R400). -/
def decodeX (op x : Nat) : Fate :=
  let i := bf x 26 3
  let r := bf x 15 5
  let n := bf x 0 15
  let r0 := zeroField x 15 5
  let imm0 := zeroField x 0 15
  match op with
  | 0x01 => checked [(0, csrAssigned (x % 2 ^ 15))] (.csrr i r n)
  | 0x02 => checked [(0, csrAssigned (x % 2 ^ 15))] (.csrw i r n)
  | 0x03 => checked [r0] (.trap i n)
  | 0x04 => checked [imm0] (.reth i r)
  | 0x05 => checked [imm0] (.fmtw i r)
  | 0x06 => checked [imm0] (.ecmd i r)
  | 0x07 => checked [zeroField x 3 12] (.chl i r (bf x 0 3))
  | 0x08 =>
    if x / 8 % 2 = 1 then checked [r0, zeroField x 4 11] (.chkStop i (bf x 0 3))
    else checked [r0, zeroField x 4 11] (.chk i (bf x 0 3))
  | 0x09 => checked [zeroField x 1 14] (.aqp i r (bf x 0 1))
  | 0x0A => checked [zeroField x 5 10] (.kvtl i r (bf x 4 1) (bf x 0 4))
  | 0x0B => checked [r0, zeroField x 4 11] (.kvtu i (bf x 0 4))
  | 0x0C => checked [zeroField x 5 10] (.bwo i r (bf x 0 5))
  | 0x0D => checked [imm0] (.opts i r)
  | 0x0E => checked [imm0] (.ckpt i r)
  | 0x0F =>
    if x % 2 = 1 then checked [zeroField x 1 14] (.talignM i r)
    else checked [zeroField x 1 14] (.talign i r)
  | _ => .illegal

/-- The fate of a word (R286, R300), from its numeric value. -/
def fateOf (x : Nat) : Fate :=
  let e := x / 2 ^ 29 % 8
  match x / 2 ^ 20 % 64 with
  | 0x3D => checked [zeroField x 0 20] (.gate (BitVec.ofNat 3 e) (bf x 26 3))
  | 0x3E => .instr (.wait (BitVec.ofNat 3 e) (bf x 26 3) (bf x 0 20))
  | 0x3F =>
    checked [zeroField x 26 3, zeroField x 0 8]
      (.guard (BitVec.ofNat 3 e) (bf x 15 5) (bf x 9 6) (bf x 8 1))
  | op =>
    match e with
    | 0 => decodeS op x
    | 1 => decodeV op x
    | 2 => decodeM op x
    | 3 => decodeT op x
    | 4 => decodeL op x
    | 5 => decodeW op x
    | 6 => decodeY op x
    | _ => decodeX op x

/-- The fate of an instruction word. -/
def decode (w : W32) : Fate := fateOf w.toNat

/-- The engine code of a word (R285). -/
def engineOf (w : W32) : Nat := w.toNat / 2 ^ 29

/-- The idle count of a word (R285). -/
def idleOf (w : W32) : Nat := w.toNat / 2 ^ 26 % 8

/-- The opcode of a word (R285). -/
def opOf (w : W32) : Nat := w.toNat / 2 ^ 20 % 64

/-- Bytes of a word as the instruction store and memory hold it: little-endian (R5, R285). -/
def wordBytes (w : Nat) : List Byte :=
  [BitVec.ofNat 8 w, BitVec.ofNat 8 (w / 2 ^ 8), BitVec.ofNat 8 (w / 2 ^ 16),
   BitVec.ofNat 8 (w / 2 ^ 24)]

/-- The decoder on bytes: the word at the front and the rest, or none where fewer than four bytes
stand or the word is no instruction. -/
def decodeBytes : List Byte → Option (Instr × List Byte)
  | a :: b :: c :: d :: rest =>
    ((decode (d ++ c ++ b ++ a : BitVec (8 + 8 + 8 + 8))).toOption).map (·, rest)
  | _ => none

/-- The instruction of a table row: rows with an encoding have 32 bits; rows of the package have
no encoding, so no word stands for them. -/
def decodeTableWord (nbits w : Nat) : Option Instr :=
  if nbits = 0 || nbits > 32 then none
  else (decodeBytes (wordBytes (w % 2 ^ nbits))).map Prod.fst

/-- A word from its fixed bits and its fields, each a value and the position of its lowest bit. -/
def pack (base : Nat) (fields : List (Nat × Nat)) : Nat :=
  fields.foldl (fun x f => x + f.1 * 2 ^ f.2) base

/-- The word of an instruction, from the layout of its opcode-table row; a step of the package has
no word. -/
def encode : Instr → Option Nat
  | .add i d a b =>
    some (pack 0x00100000 [(i.toNat, 26), (d.toNat, 15), (a.toNat, 10), (b.toNat, 5)])
  | .sub i d a b =>
    some (pack 0x00200000 [(i.toNat, 26), (d.toNat, 15), (a.toNat, 10), (b.toNat, 5)])
  | .addi i d a m =>
    some (pack 0x00300000 [(i.toNat, 26), (d.toNat, 15), (a.toNat, 10), (m.toNat, 0)])
  | .mul i d a b =>
    some (pack 0x00400000 [(i.toNat, 26), (d.toNat, 15), (a.toNat, 10), (b.toNat, 5)])
  | .mulh i d a b n =>
    some (pack 0x00500000 [(i.toNat, 26), (d.toNat, 15), (a.toNat, 10), (b.toNat, 5), (n.toNat, 0)])
  | .div i d a b f =>
    some (pack 0x00600000 [(i.toNat, 26), (d.toNat, 15), (a.toNat, 10), (b.toNat, 5), (f.toNat, 0)])
  | .and i d a b =>
    some (pack 0x00700000 [(i.toNat, 26), (d.toNat, 15), (a.toNat, 10), (b.toNat, 5)])
  | .or i d a b =>
    some (pack 0x00800000 [(i.toNat, 26), (d.toNat, 15), (a.toNat, 10), (b.toNat, 5)])
  | .xor i d a b =>
    some (pack 0x00900000 [(i.toNat, 26), (d.toNat, 15), (a.toNat, 10), (b.toNat, 5)])
  | .andi i d a m =>
    some (pack 0x00A00000 [(i.toNat, 26), (d.toNat, 15), (a.toNat, 10), (m.toNat, 0)])
  | .ori i d a m =>
    some (pack 0x00B00000 [(i.toNat, 26), (d.toNat, 15), (a.toNat, 10), (m.toNat, 0)])
  | .xori i d a m =>
    some (pack 0x00C00000 [(i.toNat, 26), (d.toNat, 15), (a.toNat, 10), (m.toNat, 0)])
  | .shl i d a b =>
    some (pack 0x00D00000 [(i.toNat, 26), (d.toNat, 15), (a.toNat, 10), (b.toNat, 5)])
  | .shlImm i d a b h =>
    some (pack 0x00D00010 [(i.toNat, 26), (d.toNat, 15), (a.toNat, 10), (b.toNat, 5), (h.toNat, 0)])
  | .shr i d a b =>
    some (pack 0x00E00000 [(i.toNat, 26), (d.toNat, 15), (a.toNat, 10), (b.toNat, 5)])
  | .shrImm i d a b h =>
    some (pack 0x00E00010 [(i.toNat, 26), (d.toNat, 15), (a.toNat, 10), (b.toNat, 5), (h.toNat, 0)])
  | .sar i d a b =>
    some (pack 0x00F00000 [(i.toNat, 26), (d.toNat, 15), (a.toNat, 10), (b.toNat, 5)])
  | .sarImm i d a b h =>
    some (pack 0x00F00010 [(i.toNat, 26), (d.toNat, 15), (a.toNat, 10), (b.toNat, 5), (h.toNat, 0)])
  | .min i d a b n =>
    some (pack 0x01000000 [(i.toNat, 26), (d.toNat, 15), (a.toNat, 10), (b.toNat, 5), (n.toNat, 0)])
  | .max i d a b n =>
    some (pack 0x01100000 [(i.toNat, 26), (d.toNat, 15), (a.toNat, 10), (b.toNat, 5), (n.toNat, 0)])
  | .clz i d a => some (pack 0x01200000 [(i.toNat, 26), (d.toNat, 15), (a.toNat, 10)])
  | .popc i d a => some (pack 0x01300000 [(i.toNat, 26), (d.toNat, 15), (a.toNat, 10)])
  | .cmp i d a b c =>
    some (pack 0x01400000 [(i.toNat, 26), (d.toNat, 15), (a.toNat, 10), (b.toNat, 5), (c.toNat, 0)])
  | .sel i d a b c =>
    some (pack 0x01500000 [(i.toNat, 26), (d.toNat, 15), (a.toNat, 10), (b.toNat, 5), (c.toNat, 0)])
  | .li i d m => some (pack 0x01600000 [(i.toNat, 26), (d.toNat, 15), (m.toNat, 0)])
  | .lsi i d m => some (pack 0x01700000 [(i.toNat, 26), (d.toNat, 15), (m.toNat, 0)])
  | .spt i d a => some (pack 0x01800000 [(i.toNat, 26), (d.toNat, 15), (a.toNat, 10)])
  | .spc i d a f =>
    some (pack 0x01900000 [(i.toNat, 26), (d.toNat, 15), (a.toNat, 10), (f.toNat, 0)])
  | .loop i c p => some (pack 0x01A00000 [(i.toNat, 26), (c.toNat, 10), (p.toNat, 0)])
  | .loopReg i j p => some (pack 0x01A80000 [(i.toNat, 26), (j.toNat, 10), (p.toNat, 0)])
  | .endl i => some (pack 0x01B00000 [(i.toNat, 26)])
  | .nop i => some (pack 0x01C00000 [(i.toNat, 26)])
  | .halt i => some (pack 0x01D00000 [(i.toNat, 26)])
  | .bfx i d a b f =>
    some (pack 0x01E00000 [(i.toNat, 26), (d.toNat, 15), (a.toNat, 10), (b.toNat, 5), (f.toNat, 0)])
  | .bfi i d a b =>
    some (pack 0x01F00000 [(i.toNat, 26), (d.toNat, 15), (a.toNat, 10), (b.toNat, 5)])
  | .gate e i => some (pack 0x03D00000 [(e.toNat, 29), (i.toNat, 26)])
  | .wait e i n => some (pack 0x03E00000 [(e.toNat, 29), (i.toNat, 26), (n.toNat, 0)])
  | .guard e r b v =>
    some (pack 0x03F00000 [(e.toNat, 29), (r.toNat, 15), (b.toNat, 9), (v.toNat, 8)])
  | .rmode e i s m =>
    some (pack 0x01E00000 [(e.toNat, 29), (i.toNat, 26), (s.toNat, 3), (m.toNat, 0)])
  | .vadd i d a b s p q r f =>
    some (pack 0x20100000 [(i.toNat, 26), (d.toNat, 16), (a.toNat, 12), (b.toNat, 7), (s.toNat, 6),
      (p.toNat, 5), (q.toNat, 4), (r.toNat, 3), (f.toNat, 0)])
  | .vsub i d a b s p q r f =>
    some (pack 0x20200000 [(i.toNat, 26), (d.toNat, 16), (a.toNat, 12), (b.toNat, 7), (s.toNat, 6),
      (p.toNat, 5), (q.toNat, 4), (r.toNat, 3), (f.toNat, 0)])
  | .vmul i d a b s p q r f =>
    some (pack 0x20300000 [(i.toNat, 26), (d.toNat, 16), (a.toNat, 12), (b.toNat, 7), (s.toNat, 6),
      (p.toNat, 5), (q.toNat, 4), (r.toNat, 3), (f.toNat, 0)])
  | .vfma i d a b s p q r f =>
    some (pack 0x20400000 [(i.toNat, 26), (d.toNat, 16), (a.toNat, 12), (b.toNat, 7), (s.toNat, 6),
      (p.toNat, 5), (q.toNat, 4), (r.toNat, 3), (f.toNat, 0)])
  | .vmax i d a b s p q r =>
    some (pack 0x20500000 [(i.toNat, 26), (d.toNat, 16), (a.toNat, 12), (b.toNat, 7), (s.toNat, 6),
      (p.toNat, 5), (q.toNat, 4), (r.toNat, 3)])
  | .vmin i d a b s p q r =>
    some (pack 0x20600000 [(i.toNat, 26), (d.toNat, 16), (a.toNat, 12), (b.toNat, 7), (s.toNat, 6),
      (p.toNat, 5), (q.toNat, 4), (r.toNat, 3)])
  | .vabs i d a p q f =>
    some (pack 0x20700000 [(i.toNat, 26), (d.toNat, 16), (a.toNat, 12), (p.toNat, 5), (q.toNat, 4),
      (f.toNat, 0)])
  | .vneg i d a p q f =>
    some (pack 0x20800000 [(i.toNat, 26), (d.toNat, 16), (a.toNat, 12), (p.toNat, 5), (q.toNat, 4),
      (f.toNat, 0)])
  | .vand i d a b s p q r =>
    some (pack 0x20900000 [(i.toNat, 26), (d.toNat, 16), (a.toNat, 12), (b.toNat, 7), (s.toNat, 6),
      (p.toNat, 5), (q.toNat, 4), (r.toNat, 3)])
  | .vor i d a b s p q r =>
    some (pack 0x20A00000 [(i.toNat, 26), (d.toNat, 16), (a.toNat, 12), (b.toNat, 7), (s.toNat, 6),
      (p.toNat, 5), (q.toNat, 4), (r.toNat, 3)])
  | .vxor i d a b s p q r =>
    some (pack 0x20B00000 [(i.toNat, 26), (d.toNat, 16), (a.toNat, 12), (b.toNat, 7), (s.toNat, 6),
      (p.toNat, 5), (q.toNat, 4), (r.toNat, 3)])
  | .vshl i d a b s p q r =>
    some (pack 0x20C00000 [(i.toNat, 26), (d.toNat, 16), (a.toNat, 12), (b.toNat, 7), (s.toNat, 6),
      (p.toNat, 5), (q.toNat, 4), (r.toNat, 3)])
  | .vshr i d a b s p q r f =>
    some (pack 0x20D00000 [(i.toNat, 26), (d.toNat, 16), (a.toNat, 12), (b.toNat, 7), (s.toNat, 6),
      (p.toNat, 5), (q.toNat, 4), (r.toNat, 3), (f.toNat, 0)])
  | .vcmp i d a b s p q r f =>
    some (pack 0x20E00000 [(i.toNat, 26), (d.toNat, 16), (a.toNat, 12), (b.toNat, 7), (s.toNat, 6),
      (p.toNat, 5), (q.toNat, 4), (r.toNat, 3), (f.toNat, 0)])
  | .vsel i d a b s p q r =>
    some (pack 0x20F00000 [(i.toNat, 26), (d.toNat, 16), (a.toNat, 12), (b.toNat, 7), (s.toNat, 6),
      (p.toNat, 5), (q.toNat, 4), (r.toNat, 3)])
  | .vred i d a p q f =>
    some (pack 0x21000000 [(i.toNat, 26), (d.toNat, 16), (a.toNat, 12), (p.toNat, 5), (q.toNat, 4),
      (f.toNat, 0)])
  | .vscan i d a p q f =>
    some (pack 0x21100000 [(i.toNat, 26), (d.toNat, 16), (a.toNat, 12), (p.toNat, 5), (q.toNat, 4),
      (f.toNat, 0)])
  | .vbcast i d a b p q =>
    some (pack 0x21200040 [(i.toNat, 26), (d.toNat, 16), (a.toNat, 12), (b.toNat, 7), (p.toNat, 5),
      (q.toNat, 4)])
  | .viota i d b p =>
    some (pack 0x21300040 [(i.toNat, 26), (d.toNat, 16), (b.toNat, 7), (p.toNat, 5)])
  | .vperm i d a b s p q r =>
    some (pack 0x21400000 [(i.toNat, 26), (d.toNat, 16), (a.toNat, 12), (b.toNat, 7), (s.toNat, 6),
      (p.toNat, 5), (q.toNat, 4), (r.toNat, 3)])
  | .vsortk i d a b p q r f =>
    some (pack 0x21500000 [(i.toNat, 26), (d.toNat, 16), (a.toNat, 12), (b.toNat, 7), (p.toNat, 5),
      (q.toNat, 4), (r.toNat, 3), (f.toNat, 0)])
  | .vsegr i d a b p q r f =>
    some (pack 0x21600000 [(i.toNat, 26), (d.toNat, 16), (a.toNat, 12), (b.toNat, 7), (p.toNat, 5),
      (q.toNat, 4), (r.toNat, 3), (f.toNat, 0)])
  | .vexp2 i d a p q =>
    some (pack 0x21700000 [(i.toNat, 26), (d.toNat, 16), (a.toNat, 12), (p.toNat, 5), (q.toNat, 4)])
  | .vrcp i d a p q =>
    some (pack 0x21800000 [(i.toNat, 26), (d.toNat, 16), (a.toNat, 12), (p.toNat, 5), (q.toNat, 4)])
  | .vrsq i d a p q =>
    some (pack 0x21900000 [(i.toNat, 26), (d.toNat, 16), (a.toNat, 12), (p.toNat, 5), (q.toNat, 4)])
  | .vcvt i d a p q f =>
    some (pack 0x21A00000 [(i.toNat, 26), (d.toNat, 16), (a.toNat, 12), (p.toNat, 5), (q.toNat, 4),
      (f.toNat, 0)])
  | .vrnd i d a p q =>
    some (pack 0x21B00000 [(i.toNat, 26), (d.toNat, 16), (a.toNat, 12), (p.toNat, 5), (q.toNat, 4)])
  | .vmov i d a p q =>
    some (pack 0x21C00000 [(i.toNat, 26), (d.toNat, 16), (a.toNat, 12), (p.toNat, 5), (q.toNat, 4)])
  | .vmovScalar i d b p =>
    some (pack 0x21C00040 [(i.toNat, 26), (d.toNat, 16), (b.toNat, 7), (p.toNat, 5)])
  | .vtmg i d a b p q r =>
    some (pack 0x21D00000 [(i.toNat, 26), (d.toNat, 16), (a.toNat, 12), (b.toNat, 7), (p.toNat, 5),
      (q.toNat, 4), (r.toNat, 3)])
  | .mwld i k r => some (pack 0x40100000 [(i.toNat, 26), (k.toNat, 14), (r.toNat, 7)])
  | .mswp i => some (pack 0x40200000 [(i.toNat, 26)])
  | .mfwd i a k r =>
    some (pack 0x40300000 [(i.toNat, 26), (a.toNat, 18), (k.toNat, 14), (r.toNat, 7)])
  | .mbwd i a k r =>
    some (pack 0x40400000 [(i.toNat, 26), (a.toNat, 18), (k.toNat, 14), (r.toNat, 7)])
  | .mhad i k n d =>
    some (pack 0x40500000 [(i.toNat, 26), (k.toNat, 14), (n.toNat, 4), (d.toNat, 0)])
  | .mqnt i k n d =>
    some (pack 0x40600000 [(i.toNat, 26), (k.toNat, 14), (n.toNat, 4), (d.toNat, 0)])
  | .mdrn i a k r v z =>
    some (pack 0x40700000 [(i.toNat, 26), (a.toNat, 18), (k.toNat, 14), (r.toNat, 7), (v.toNat, 1),
      (z.toNat, 0)])
  | .mclr i a r => some (pack 0x40800000 [(i.toNat, 26), (a.toNat, 18), (r.toNat, 7)])
  | .tcfg i x y => some (pack 0x60100000 [(i.toNat, 26), (x.toNat, 15), (y.toNat, 10)])
  | .tzero i x => some (pack 0x60200000 [(i.toNat, 26), (x.toNat, 15)])
  | .trmov i x y q p =>
    some (pack 0x60300000 [(i.toNat, 26), (x.toNat, 15), (y.toNat, 10), (q.toNat, 1), (p.toNat, 0)])
  | .trmovRows i x y z =>
    some (pack 0x60300004 [(i.toNat, 26), (x.toNat, 15), (y.toNat, 10), (z.toNat, 5)])
  | .tcmov i x y z =>
    some (pack 0x60400000 [(i.toNat, 26), (x.toNat, 15), (y.toNat, 10), (z.toNat, 5)])
  | .ttr i x y => some (pack 0x60500000 [(i.toNat, 26), (x.toNat, 15), (y.toNat, 10)])
  | .tldv i x y => some (pack 0x60600000 [(i.toNat, 26), (x.toNat, 15), (y.toNat, 10)])
  | .tmkv i x y => some (pack 0x60700000 [(i.toNat, 26), (x.toNat, 15), (y.toNat, 10)])
  | .dup i x y => some (pack 0x60800000 [(i.toNat, 26), (x.toNat, 15), (y.toNat, 10)])
  | .drop i y => some (pack 0x60900000 [(i.toNat, 26), (y.toNat, 10)])
  | .reuse i y => some (pack 0x60A00000 [(i.toNat, 26), (y.toNat, 10)])
  | .upd i x y z =>
    some (pack 0x60B00000 [(i.toNat, 26), (x.toNat, 15), (y.toNat, 10), (z.toNat, 5)])
  | .updr i x y z f =>
    some (pack 0x60C00000 [(i.toNat, 26), (x.toNat, 15), (y.toNat, 10), (z.toNat, 5), (f.toNat, 0)])
  | .cnt i x y => some (pack 0x60D00000 [(i.toNat, 26), (x.toNat, 15), (y.toNat, 10)])
  | .ld i d b x p g z =>
    some (pack 0x80100000 [(i.toNat, 26), (d.toNat, 15), (b.toNat, 10), (x.toNat, 5), (p.toNat, 3),
      (g.toNat, 2), (z.toNat, 0)])
  | .ldg i d b x g z =>
    some (pack 0x80200000 [(i.toNat, 26), (d.toNat, 15), (b.toNat, 10), (x.toNat, 5), (g.toNat, 2),
      (z.toNat, 0)])
  | .ldt i d b x p v t =>
    some (pack 0x80300000 [(i.toNat, 26), (d.toNat, 15), (b.toNat, 10), (x.toNat, 5), (p.toNat, 3),
      (v.toNat, 1), (t.toNat, 0)])
  | .ldr i d b x p n =>
    some (pack 0x80400000 [(i.toNat, 26), (d.toNat, 15), (b.toNat, 10), (x.toNat, 5), (p.toNat, 3),
      (n.toNat, 0)])
  | .ldtr i d b x =>
    some (pack 0x80500008 [(i.toNat, 26), (d.toNat, 15), (b.toNat, 10), (x.toNat, 5)])
  | .gth i d b l p =>
    some (pack 0x80600000 [(i.toNat, 26), (d.toNat, 15), (b.toNat, 10), (l.toNat, 5), (p.toNat, 3)])
  | .ldv i d b h p =>
    some (pack 0x80700000 [(i.toNat, 26), (d.toNat, 15), (b.toNat, 10), (h.toNat, 5), (p.toNat, 3)])
  | .st i s b x p z =>
    some (pack 0xA0100000 [(i.toNat, 26), (s.toNat, 15), (b.toNat, 10), (x.toNat, 5), (p.toNat, 3),
      (z.toNat, 0)])
  | .stg i s b x z =>
    some (pack 0xA0200000 [(i.toNat, 26), (s.toNat, 15), (b.toNat, 10), (x.toNat, 5), (z.toNat, 0)])
  | .stt i s b x p n =>
    some (pack 0xA0300000 [(i.toNat, 26), (s.toNat, 15), (b.toNat, 10), (x.toNat, 5), (p.toNat, 3),
      (n.toNat, 0)])
  | .stv i s b x =>
    some (pack 0xA0400000 [(i.toNat, 26), (s.toNat, 15), (b.toNat, 10), (x.toNat, 5)])
  | .sct i s b l p =>
    some (pack 0xA0500000 [(i.toNat, 26), (s.toNat, 15), (b.toNat, 10), (l.toNat, 5), (p.toNat, 3)])
  | .red i s b x o =>
    some (pack 0xA0600000 [(i.toNat, 26), (s.toNat, 15), (b.toNat, 10), (x.toNat, 5), (o.toNat, 0)])
  | .redRow i s b x n o =>
    some (pack 0xA0600008 [(i.toNat, 26), (s.toNat, 15), (b.toNat, 10), (x.toNat, 5), (n.toNat, 4),
      (o.toNat, 0)])
  | .kva i d b k =>
    some (pack 0xA0700000 [(i.toNat, 26), (d.toNat, 15), (b.toNat, 10), (k.toNat, 5)])
  | .kvr i d a k o =>
    some (pack 0xA0800000 [(i.toNat, 26), (d.toNat, 15), (a.toNat, 10), (k.toNat, 5), (o.toNat, 0)])
  | .bws i s g => some (pack 0xA0900000 [(i.toNat, 26), (s.toNat, 15), (g.toNat, 10)])
  | .bwc i g => some (pack 0xA0A00000 [(i.toNat, 26), (g.toNat, 10)])
  | .bwa i g => some (pack 0xA0B00000 [(i.toNat, 26), (g.toNat, 10)])
  | .fence i c o => some (pack 0xC0100000 [(i.toNat, 26), (c.toNat, 2), (o.toNat, 0)])
  | .ldaq i d a g z c o =>
    some (pack 0xC0200000 [(i.toNat, 26), (d.toNat, 15), (a.toNat, 10), (g.toNat, 7), (z.toNat, 5),
      (c.toNat, 2), (o.toNat, 0)])
  | .strl i z a b c o =>
    some (pack 0xC0300000 [(i.toNat, 26), (z.toNat, 15), (a.toNat, 10), (b.toNat, 5), (c.toNat, 2),
      (o.toNat, 0)])
  | .atom i d a w p c o =>
    some (pack 0xC0400000 [(i.toNat, 26), (d.toNat, 15), (a.toNat, 10), (w.toNat, 9), (p.toNat, 5),
      (c.toNat, 2), (o.toNat, 0)])
  | .cas i d a b c o =>
    some (pack 0xC0500000 [(i.toNat, 26), (d.toNat, 15), (a.toNat, 10), (b.toNat, 5), (c.toNat, 2),
      (o.toNat, 0)])
  | .rlk i a c o =>
    some (pack 0xC0600000 [(i.toNat, 26), (a.toNat, 10), (c.toNat, 2), (o.toNat, 0)])
  | .rul i a c o =>
    some (pack 0xC0700000 [(i.toNat, 26), (a.toNat, 10), (c.toNat, 2), (o.toNat, 0)])
  | .wlk i a c o =>
    some (pack 0xC0800000 [(i.toNat, 26), (a.toNat, 10), (c.toNat, 2), (o.toNat, 0)])
  | .wul i a c o =>
    some (pack 0xC0900000 [(i.toNat, 26), (a.toNat, 10), (c.toNat, 2), (o.toNat, 0)])
  | .bar i a c o =>
    some (pack 0xC0A00000 [(i.toNat, 26), (a.toNat, 10), (c.toNat, 2), (o.toNat, 0)])
  | .sigf i f a c o =>
    some (pack 0xC0B00000 [(i.toNat, 26), (f.toNat, 15), (a.toNat, 10), (c.toNat, 2), (o.toNat, 0)])
  | .waitf i f a c o =>
    some (pack 0xC0C00000 [(i.toNat, 26), (f.toNat, 15), (a.toNat, 10), (c.toNat, 2), (o.toNat, 0)])
  | .rres i d k => some (pack 0xC0D00000 [(i.toNat, 26), (d.toNat, 15), (k.toNat, 5)])
  | .rpub i a k => some (pack 0xC0E00000 [(i.toNat, 26), (a.toNat, 10), (k.toNat, 5)])
  | .rcon i d k => some (pack 0xC0F00000 [(i.toNat, 26), (d.toNat, 15), (k.toNat, 5)])
  | .rrel i a k => some (pack 0xC1000000 [(i.toNat, 26), (a.toNat, 10), (k.toNat, 5)])
  | .fill i a b c o =>
    some (pack 0xC1100000 [(i.toNat, 26), (a.toNat, 10), (b.toNat, 5), (c.toNat, 2), (o.toNat, 0)])
  | .take i d a c o =>
    some (pack 0xC1200000 [(i.toNat, 26), (d.toNat, 15), (a.toNat, 10), (c.toNat, 2), (o.toNat, 0)])
  | .spawn i d a b =>
    some (pack 0xC1300000 [(i.toNat, 26), (d.toNat, 15), (a.toNat, 10), (b.toNat, 5)])
  | .rfence i => some (pack 0xC1400000 [(i.toNat, 26)])
  | .send i t h j k l m n o p =>
    some (pack 0xC1500000 [(i.toNat, 26), (t.toNat, 16), (h.toNat, 14), (j.toNat, 12),
      (k.toNat, 10), (l.toNat, 8), (m.toNat, 6), (n.toNat, 4), (o.toNat, 2), (p.toNat, 0)])
  | .csrr i d n => some (pack 0xE0100000 [(i.toNat, 26), (d.toNat, 15), (n.toNat, 0)])
  | .csrw i a n => some (pack 0xE0200000 [(i.toNat, 26), (a.toNat, 15), (n.toNat, 0)])
  | .trap i m => some (pack 0xE0300000 [(i.toNat, 26), (m.toNat, 0)])
  | .reth i a => some (pack 0xE0400000 [(i.toNat, 26), (a.toNat, 15)])
  | .fmtw i a => some (pack 0xE0500000 [(i.toNat, 26), (a.toNat, 15)])
  | .ecmd i a => some (pack 0xE0600000 [(i.toNat, 26), (a.toNat, 15)])
  | .chl i a j => some (pack 0xE0700000 [(i.toNat, 26), (a.toNat, 15), (j.toNat, 0)])
  | .chk i j => some (pack 0xE0800000 [(i.toNat, 26), (j.toNat, 0)])
  | .chkStop i j => some (pack 0xE0800008 [(i.toNat, 26), (j.toNat, 0)])
  | .aqp i a b => some (pack 0xE0900000 [(i.toNat, 26), (a.toNat, 15), (b.toNat, 0)])
  | .kvtl i a l n =>
    some (pack 0xE0A00000 [(i.toNat, 26), (a.toNat, 15), (l.toNat, 4), (n.toNat, 0)])
  | .kvtu i n => some (pack 0xE0B00000 [(i.toNat, 26), (n.toNat, 0)])
  | .bwo i a d => some (pack 0xE0C00000 [(i.toNat, 26), (a.toNat, 15), (d.toNat, 0)])
  | .opts i a => some (pack 0xE0D00000 [(i.toNat, 26), (a.toNat, 15)])
  | .ckpt i a => some (pack 0xE0E00000 [(i.toNat, 26), (a.toNat, 15)])
  | .talign i a => some (pack 0xE0F00000 [(i.toNat, 26), (a.toNat, 15)])
  | .talignM i a => some (pack 0xE0F00001 [(i.toNat, 26), (a.toNat, 15)])
  | _ => none

end Sys2Proof
end

