-- ==== Sys2Proof/Config.lean ====
section
/-!
DEFINITION. What the manual leaves to the silicon: constants with no body, so that no proof can lean
on a value of theirs. Each use that may differ from one time to the next is given a fresh number,
which State counts.
-/

namespace Sys2Proof.Config

/-- The time of an asynchronous completion, in tc beyond the least that the manual allows (R31,
R126, R174, R239, R403; log 3). -/
opaque latency : Nat → Nat

/-- What the silicon answers at package reset, and the image that the flash holds as it leaves the factory (R23;
log 1). -/
opaque bootEnv : BootEnv
opaque flashImage : List Byte

/-- Whether the signature of an image is valid (R23, phase 2; log 7), and how a recovery DMA ends (R50; log 7), by the
number of the use. -/
opaque signed : List Byte → Bool
opaque recoveryRead : Nat → RecoveryRead

/-- The E8M0 code of a converted element that has no stated one (R262; log 51): by source type and bits. -/
opaque e8m0 : Nat → Nat → Byte

/-- DEVID.STEP (R49; log 1). -/
opaque stepping : Byte

/-- The fused minimum version (R23, R69; log 7). -/
opaque fusedMinimum : BitVec 32

/-- The security processor's identity key and ephemeral key, and their functions on brainpoolP384r1
(R66 to R69; log 7). The argument of `ephemeralKey` numbers the package resets. -/
opaque identityDigest : List Byte
opaque certificateChain : List Byte
opaque ephemeralKey : Nat → List Byte
opaque sha384 : List Byte → List Byte
opaque signature : List Byte → List Byte
opaque onCurve : List Byte → Bool
opaque sharedPoint : Nat → List Byte → List Byte
opaque unwrapKey : List Byte → List Byte → Option (List Byte)

/-- AES-256-XTS of a 64-byte line (R66; log 7): the key, the line's device physical address, the line. -/
opaque encrypt : List Byte → Nat → BitVec 512 → BitVec 512
opaque decrypt : List Byte → Nat → BitVec 512 → BitVec 512

/-- Content that an unreadable row leaves (R235; log 13), by the number of the use and the byte. -/
opaque lostByte : Nat → Nat → Byte

/-- What no rule says of an event record or of a fault frame (log 15), by the number of the use; and the
MSI-X vector of PF0 that tells of an event of a type other than 0x09. -/
opaque eventDetail : Nat → W64
opaque eventVector : Nat → Nat

/-- The phase of a bank's refresh (R220; log 3). -/
opaque refreshPhase : Nat → Nat

/-- The lines that an engine command has written when a stop ends it (R118, R463; log 26), by the number of the
use. -/
opaque linesMoved : Nat → Nat

/-- The package's own index in its pod (R40, R46; log 8): no rule says where the package learns it. -/
opaque podIndex : BitVec 10

/-- Whether the transfers of a connection, named by its remote pod, are delivered in order (R44; log 40). -/
opaque ordered : Nat → Bool

/-- Data that another package or a remote pod returns for a read (R35, R44; log 8). -/
opaque remoteData : Nat → Nat → List Byte

/-- Whether another package refuses an access (R42; log 8). -/
opaque remoteRefuses : Nat → Bool

end Sys2Proof.Config
end

