-- ==== Sys2Proof/Machine/Numbers.lean ====
section
/-!
DEFINITION. The number formats and their arithmetic (spec/12_numbers.md): exact values, one rounding,
the conversions, the block formats, the random words of stochastic rounding and the sums of the
matrix array. Bits of an element are natural numbers below 2 to the element's width.
-/

namespace Sys2Proof.Machine

/-- An exact value: NaN, an infinity, or (−1)^neg × m × 2^e. With `rest` set the exact magnitude lies
strictly between m × 2^e and (m + 1) × 2^e, as a quotient, a root or a power leaves it. -/
inductive Num where
  | nan
  | inf (neg : Bool)
  | fin (neg : Bool) (m : Nat) (e : Int) (rest : Bool)
  deriving DecidableEq, Repr

/-- The bits of one engine's flags in the order of R282. -/
abbrev Flags := Nat

def flagInvalid : Flags := 1
def flagOverflow : Flags := 2
def flagUnderflow : Flags := 4
def flagInexact : Flags := 8
def flagSaturation : Flags := 16

/-- A value with the flags that forming it raised. -/
abbrev WithFlags (α : Type) := α × Flags

/-- The element types of R257. -/
def tFP32 : Nat := 0
def tFP16 : Nat := 1
def tBF16 : Nat := 2
def tE4M3 : Nat := 3
def tE5M2 : Nat := 4
def tMXFP8 : Nat := 5
def tOX4 : Nat := 6
def tE8M0 : Nat := 7

/-- Bits of one element (R257). -/
def elemBits (t : Nat) : Nat :=
  match t with
  | 0 => 32 | 1 => 16 | 2 => 16 | 6 => 4
  | 8 => 8 | 9 => 16 | 10 => 32 | 11 => 64
  | 12 => 8 | 13 => 16 | 14 => 32 | 15 => 64
  | _ => 8

/-- The classes of R349. -/
def isF (t : Nat) : Bool := t ≤ 2
def isI (t : Nat) : Bool := 8 ≤ t && t ≤ 15
def isP (t : Nat) : Bool := t == 3 || t == 4 || t == 7
def isK (t : Nat) : Bool := t == 5 || t == 6
def isSigned (t : Nat) : Bool := 8 ≤ t && t ≤ 11

/-- A floating-point format (R259). -/
structure Fmt where
  eb : Nat
  mb : Nat
  bias : Nat
  hasInf : Bool
  deriving DecidableEq, Repr

/-- The formats of R259; MXFP8 elements are E4M3 (R263). -/
def fmtOf (t : Nat) : Fmt :=
  match t with
  | 0 => ⟨8, 23, 127, true⟩
  | 1 => ⟨5, 10, 15, true⟩
  | 2 => ⟨8, 7, 127, true⟩
  | 4 => ⟨5, 2, 15, true⟩
  | _ => ⟨4, 3, 7, false⟩

def Fmt.signBit (f : Fmt) : Nat := 2 ^ (f.eb + f.mb)

/-- The magnitude bits of infinity. -/
def Fmt.infBits (f : Fmt) : Nat := (2 ^ f.eb - 1) * 2 ^ f.mb

/-- The magnitude bits of the largest finite value. -/
def Fmt.maxBits (f : Fmt) : Nat := if f.hasInf then f.infBits - 1 else 2 ^ (f.eb + f.mb) - 2

/-- The exponent of the largest finite value. -/
def Fmt.topExp (f : Fmt) : Int := (2 ^ f.eb - (if f.hasInf then 2 else 1) : Nat) - (f.bias : Int)

/-- The canonical NaN (R259, R260). -/
def Fmt.nanBits (f : Fmt) : Nat :=
  if !f.hasInf then 2 ^ (f.eb + f.mb) - 1 else f.infBits + 2 ^ (f.mb - 1)

/-- The canonical NaN of a type (R259, R262). -/
def canonNaN (t : Nat) : Nat := if t = tE8M0 then 0xFF else (fmtOf t).nanBits

/-- The integer that `w` low bits of `b` hold in two's complement. -/
def signedOf (w b : Nat) : Int :=
  let v := b % 2 ^ w
  if v < 2 ^ (w - 1) then (v : Int) else (v : Int) - (2 ^ w : Nat)

/-- The bits of an integer modulo 2^w. -/
def bitsOfInt (w : Nat) (v : Int) : Nat := (v % ((2 ^ w : Nat) : Int)).toNat

/-- The value of an integer element (R266). -/
def intOf (t b : Nat) : Int :=
  if isSigned t then signedOf (elemBits t) b else ((b % 2 ^ elemBits t : Nat) : Int)

/-- An integer as an exact value. -/
def numOfInt (v : Int) : Num := .fin (v < 0) v.natAbs 0 false

/-- The value of a floating-point element (R259). -/
def floatOf (f : Fmt) (b : Nat) : Num :=
  let neg := b / f.signBit % 2 = 1
  let ex := b / 2 ^ f.mb % 2 ^ f.eb
  let fr := b % 2 ^ f.mb
  let top := 2 ^ f.eb - 1
  if f.hasInf && ex == top then (if fr = 0 then .inf neg else .nan)
  else if !f.hasInf && ex == top && fr == 2 ^ f.mb - 1 then .nan
  else if ex = 0 then .fin neg fr (1 - (f.bias : Int) - f.mb) false
  else .fin neg (fr + 2 ^ f.mb) ((ex : Int) - f.bias - f.mb) false

/-- The value of an element of any type but the block types' scaled ones. -/
def valueOf (t b : Nat) : Num :=
  if isI t then numOfInt (intOf t b)
  else if t = tE8M0 then (if b % 256 = 255 then .nan else .fin false 1 ((b % 256 : Nat) - 127) false)
  else floatOf (fmtOf t) b

def Num.isNaN : Num → Bool
  | .nan => true
  | _ => false

def Num.isInf : Num → Bool
  | .inf _ => true
  | _ => false

def Num.isZero : Num → Bool
  | .fin _ 0 _ false => true
  | _ => false

def Num.neg : Num → Num
  | .nan => .nan
  | .inf s => .inf (!s)
  | .fin s m e r => .fin (!s) m e r

def Num.abs : Num → Num
  | .nan => .nan
  | .inf _ => .inf false
  | .fin _ m e r => .fin false m e r

/-- Multiplication by a power of two. -/
def Num.scale (x : Num) (k : Int) : Num :=
  match x with
  | .fin s m e r => .fin s m (e + k) r
  | y => y

/-- The number of bits of a natural number. -/
def bitLen (n : Nat) : Nat := if n = 0 then 0 else Nat.log2 n + 1

/-- What one rounding needs: the mode of R267, SAT, and the random word of R274. -/
structure Rounding where
  mode : Nat
  sat : Bool
  rnd : Nat
  deriving DecidableEq, Repr

/-- Nearest, ties to even, SAT clear. -/
def rne : Rounding := ⟨0, false, 0⟩

/-- Rounding a nonnegative magnitude m × 2^e (with `rest`) to a multiple of 2^q: the multiple, whether
it is inexact, and whether the value away from zero was chosen (R267, R274). -/
def quantum (neg : Bool) (m : Nat) (e : Int) (rest : Bool) (q : Int) (r : Rounding) :
    Nat × Bool × Bool :=
  if q ≤ e then (m * 2 ^ (e - q).toNat, rest, rest && ((r.mode == 2 && neg) || (r.mode == 3 && !neg)))
  else
    let k := (q - e).toNat
    let n := m / 2 ^ k
    let rem := m % 2 ^ k
    let half := 2 ^ (k - 1)
    if rem = 0 && !rest then (n, false, false)
    else
      let up := match r.mode with
        | 0 => rem > half || (rem == half && (rest || n % 2 == 1))
        | 1 => false
        | 2 => neg
        | 3 => !neg
        | 4 => rem ≥ half
        | _ => r.rnd < rem * 2 ^ 32 / 2 ^ k
      (n + (if up then 1 else 0), true, up)

/-- A rounding into a floating-point format (R268, R269). Beyond the largest finite value the grid goes on
with that value's spacing; stochastic rounding takes a value at or past the next place of the grid away from
zero, since `f` of R274 then exceeds every `r` (log 50). -/
def roundFloat (f : Fmt) (r : Rounding) (x : Num) : WithFlags Nat :=
  match x with
  | .nan => (f.nanBits, 0)
  | .inf neg =>
    let s := if neg then f.signBit else 0
    if r.sat then (s + f.maxBits, flagSaturation)
    else if f.hasInf then (s + f.infBits, 0)
    else (f.nanBits, flagInvalid)
  | .fin neg m e rest =>
    let s := if neg then f.signBit else 0
    if m = 0 && !rest then (s, 0)
    else
      let emin : Int := 1 - f.bias
      let top : Int := e + (bitLen m : Int) - 1
      let q : Int := (if top < emin then emin else if f.topExp < top then f.topExp else top) - f.mb
      let (n, inexact, _) := quantum neg m e rest q r
      let code := (q - (emin - f.mb)).toNat * 2 ^ f.mb + n
      if code ≤ f.maxBits then
        (s + code,
          (if inexact then flagInexact else 0) + (if inexact && top < emin then flagUnderflow else 0))
      else
        let away := match r.mode with
          | 0 | 4 => true
          | 1 => false
          | 2 => neg
          | 3 => !neg
          | _ => true
        let fl := flagOverflow + flagInexact
        if r.sat then (s + f.maxBits, fl + (if away then flagSaturation else 0))
        else if !away then (s + f.maxBits, fl)
        else if f.hasInf then (s + f.infBits, fl)
        else (f.nanBits, fl)

/-- The range of an integer type (R266). -/
def intMin (t : Nat) : Int := if isSigned t then -((2 ^ (elemBits t - 1) : Nat) : Int) else 0
def intMax (t : Nat) : Int :=
  if isSigned t then ((2 ^ (elemBits t - 1) : Nat) : Int) - 1 else ((2 ^ elemBits t : Nat) : Int) - 1

/-- A rounding to an integer value (R267). -/
def roundInteger (r : Rounding) (neg : Bool) (m : Nat) (e : Int) (rest : Bool) : WithFlags Int :=
  let (n, inexact, _) := quantum neg m e rest 0 r
  ((if neg then -(n : Int) else n), if inexact then flagInexact else 0)

/-- A floating-point value into an integer type (R276). -/
def roundToInt (t : Nat) (r : Rounding) (x : Num) : WithFlags Nat :=
  match x with
  | .nan => (0, flagInvalid)
  | .inf neg => (bitsOfInt (elemBits t) (if neg then intMin t else intMax t), flagInvalid)
  | .fin neg m e rest =>
    let (v, fl) := roundInteger r neg m e rest
    if v < intMin t || v > intMax t then
      (bitsOfInt (elemBits t) (if neg then intMin t else intMax t), flagInvalid)
    else (bitsOfInt (elemBits t) v, fl)

/-- An integer result into an integer type: wrapped, or clamped with the saturation flag (R266). -/
def fitInt (t : Nat) (sat : Bool) (v : Int) : WithFlags Nat :=
  if sat && v < intMin t then (bitsOfInt (elemBits t) (intMin t), flagSaturation)
  else if sat && v > intMax t then (bitsOfInt (elemBits t) (intMax t), flagSaturation)
  else (bitsOfInt (elemBits t) v, 0)

/-- A value rounded into a type of class F, E4M3 or E5M2, or into an integer type. -/
def roundTo (t : Nat) (r : Rounding) (x : Num) : WithFlags Nat :=
  if isI t then roundToInt t r x else roundFloat (fmtOf t) r x

/-- A conversion into E8M0 (R262): NaN, a positive value within the format's powers of two, and one beyond
them that the mode or SAT takes to the largest, which SAT does with +∞ too (R268). The manual states no result for a
zero, a negative value, one below the least power of two, or another infinity: `open_` (log 51). -/
def roundE8M0 (r : Rounding) (open_ : Nat) (x : Num) : Nat :=
  match x with
  | .nan => 0xFF
  | .inf neg => if r.sat && !neg then 254 else open_
  | .fin neg m e rest =>
    let top : Int := e + (bitLen m : Int) - 1
    if neg || m = 0 || top < -127 then open_
    else
      let (n, _, _) := quantum false m e rest top r
      let tie := r.mode = 0 && !rest && 2 * m == 3 * 2 ^ (bitLen m - 1)
      let code := (top + 127).toNat + (if tie then (top + 127).toNat % 2 else n - 1)
      if code ≤ 254 then code
      else if r.sat || r.mode == 1 || r.mode == 2 then 254
      else open_

/-- A conversion between element types (R275, R276). -/
def convert (src dst : Nat) (r : Rounding) (satInt : Bool) (b : Nat) : WithFlags Nat :=
  if isI src && isI dst then fitInt dst satInt (intOf src b)
  else if dst = tE8M0 then (roundE8M0 r (Config.e8m0 src b).toNat (valueOf src b), 0)
  else roundTo dst r (valueOf src b)

/-- A rounded integral value in the same format (`VRND`, R351, R359). -/
def roundIntegral (t : Nat) (r : Rounding) (b : Nat) : WithFlags Nat :=
  match valueOf t b with
  | .nan => (canonNaN t, 0)
  | .inf neg => roundFloat (fmtOf t) r (.inf neg)
  | .fin neg m e rest =>
    let (v, fl) := roundInteger r neg m e rest
    ((roundFloat (fmtOf t) rne (.fin neg v.natAbs 0 false)).1, fl)

/-! ### Exact sums and products -/

/-- The integer that a finite value is, in units of 2^g for a g at most its exponent. -/
def Num.units (g : Int) : Num → Int
  | .fin neg m e _ =>
    let v : Int := ((m * 2 ^ (e - g).toNat : Nat) : Int)
    if neg then -v else v
  | _ => 0

def Num.expo : Num → Int
  | .fin _ m e _ => if m = 0 then 0 else e
  | _ => 0

/-- The smallest exponent among values. -/
def minExpo (xs : List Num) : Int :=
  xs.foldl (fun g x => if x.expo < g then x.expo else g) 0

/-- An exact sum (R261); a NaN made from infinities of both signs raises invalid (R260). -/
def sumExact (xs : List Num) : WithFlags Num :=
  if xs.any Num.isNaN then (.nan, 0)
  else
    let pos := xs.any (fun x => x == .inf false)
    let neg := xs.any (fun x => x == .inf true)
    if pos && neg then (.nan, flagInvalid)
    else if pos then (.inf false, 0)
    else if neg then (.inf true, 0)
    else
      let g := minExpo xs
      let v := xs.foldl (fun s x => s + x.units g) 0
      if v = 0 then
        let allNegZero := xs.all (fun x => match x with | .fin true 0 _ _ => true | _ => false)
        (.fin (allNegZero && !xs.isEmpty) 0 0 false, 0)
      else (.fin (v < 0) v.natAbs g false, 0)

/-- An exact product (R261). -/
def mulExact (x y : Num) : WithFlags Num :=
  match x, y with
  | .nan, _ => (.nan, 0)
  | _, .nan => (.nan, 0)
  | .inf a, .inf b => (.inf (a != b), 0)
  | .inf a, .fin b m _ _ => if m = 0 then (.nan, flagInvalid) else (.inf (a != b), 0)
  | .fin a m _ _, .inf b => if m = 0 then (.nan, flagInvalid) else (.inf (a != b), 0)
  | .fin a m e _, .fin b n f _ => (.fin (a != b) (m * n) (e + f) false, 0)

/-- A product plus a value, exact; a NaN operand gives NaN and no flag (R260). -/
def fmaExact (x y z : Num) : WithFlags Num :=
  if z.isNaN then (.nan, 0)
  else
    let (p, f1) := mulExact x y
    let (s, f2) := sumExact [p, z]
    (s, f1 ||| f2)

/-- A rounding of a value that already carries flags. -/
def roundWith (t : Nat) (r : Rounding) (x : WithFlags Num) : WithFlags Nat :=
  let (b, f) := roundTo t r x.1
  (b, f ||| x.2)

/-! ### Comparison -/

/-- Whether x is below y, for values that are not NaN, with −0.0 and +0.0 equal. -/
def Num.lt : Num → Num → Bool
  | .nan, _ => false
  | _, .nan => false
  | .inf a, .inf b => a && !b
  | .inf a, .fin .. => a
  | .fin .., .inf b => !b
  | .fin a m e _, .fin b n f _ =>
    let g := if e < f then e else f
    (Num.units g (.fin a m e false)) < (Num.units g (.fin b n f false))

def Num.eqv (x y : Num) : Bool := !x.isNaN && !y.isNaN && !x.lt y && !y.lt x

def Num.isNeg : Num → Bool
  | .nan => false
  | .inf s => s
  | .fin s _ _ _ => s

/-- The order of minimum, maximum and sorting: −0.0 below +0.0, NaN above everything. -/
def Num.before (x y : Num) : Bool :=
  if x.isNaN then false
  else if y.isNaN then true
  else x.lt y || (x.eqv y && x.isNeg && !y.isNeg)

/-! ### Reciprocal, reciprocal root and power of two -/

/-- The integer square root, one bit at a time. -/
def isqrtAux (x : Nat) : Nat → Nat → Nat
  | 0, r => r
  | k + 1, r =>
    let r' := r + 2 ^ k
    isqrtAux x k (if r' * r' ≤ x then r' else r)

def isqrt (x : Nat) : Nat := isqrtAux x (bitLen x / 2 + 1) 0

/-- 1 / a, to 80 bits and a rest (R353). -/
def recip (x : Num) : WithFlags Num :=
  match x with
  | .nan => (.nan, 0)
  | .inf s => (.fin s 0 0 false, 0)
  | .fin s m e _ =>
    if m = 0 then (.inf s, 0)
    else
      let k := bitLen m + 80
      (.fin s (2 ^ k / m) (-(k : Int) - e) (2 ^ k % m != 0), 0)

/-- 1 / √a, to 80 bits and a rest (R353). -/
def recipSqrt (x : Num) : WithFlags Num :=
  match x with
  | .nan => (.nan, 0)
  | .inf true => (.nan, flagInvalid)
  | .inf false => (.fin false 0 0 false, 0)
  | .fin s m e _ =>
    if m = 0 then (.inf s, 0)
    else if s then (.nan, flagInvalid)
    else
      let odd := e % 2 ≠ 0
      let m' := if odd then 2 * m else m
      let h : Int := (if odd then e - 1 else e) / 2
      let k := bitLen m' / 2 + 81
      let n := isqrt (2 ^ (2 * k) / m')
      (.fin false n (-(k : Int) - h) (n * n * m' != 2 ^ (2 * k)), 0)

/-- The product of 2^(2^−i) over the set bits of a binary fraction, rounded down at `p` fraction
bits; `c` is 2^(2^−(i−1)) in the same form. -/
def pow2Frac (p : Nat) : List Bool → Nat → Nat → Nat
  | [], _, acc => acc
  | b :: rest, c, acc =>
    let c' := isqrt (c * 2 ^ p)
    pow2Frac p rest c' (if b then acc * c' / 2 ^ p else acc)

/-- The bits of a fraction j / 2^s, most significant first. -/
def fracBits (j : Nat) : Nat → List Bool
  | 0 => []
  | s + 1 => (j / 2 ^ s % 2 == 1) :: fracBits j s

/-- The first 72 fraction bits of 2^f for a fraction f with 0 < f < 1, found with rising precision
until the bounds agree. -/
def pow2Search (bits : List Bool) : Nat → Nat → Nat
  | 0, p => pow2Frac p bits (2 * 2 ^ p) (2 ^ p) / 2 ^ (p - 72)
  | fuel + 1, p =>
    let lo := pow2Frac p bits (2 * 2 ^ p) (2 ^ p)
    let hi := Nat.min (lo + 4 * (bits.length + 1)) (2 * 2 ^ p - 1)
    if lo / 2 ^ (p - 72) = hi / 2 ^ (p - 72) then lo / 2 ^ (p - 72)
    else pow2Search bits fuel (2 * p)

/-- 2^x with the exponent clamped to ±1,000, past every format (R353). -/
def pow2 (x : Num) : WithFlags Num :=
  match x with
  | .nan => (.nan, 0)
  | .inf true => (.fin false 0 0 false, 0)
  | .inf false => (.inf false, 0)
  | .fin s m e _ =>
    let clamp (v : Int) : Int := if v < -1000 then -1000 else if v > 1000 then 1000 else v
    if m = 0 then (.fin false 1 0 false, 0)
    else if e ≥ 0 then
      let big : Int := if e > 10 then 1000 else clamp (m * 2 ^ e.toNat : Nat)
      (.fin false 1 (if s then -big else big) false, 0)
    else
      let k := (-e).toNat
      let whole := m / 2 ^ k
      let fr := m % 2 ^ k
      if fr = 0 then (.fin false 1 (clamp (if s then -(whole : Int) else whole)) false, 0)
      else
        let w : Int := if s then -(whole : Int) - 1 else whole
        let f := if s then 2 ^ k - fr else fr
        (.fin false (pow2Search (fracBits f k) 4 160) (clamp w - 72) true, 0)

/-! ### Stochastic rounding -/

def mask32 (x : Nat) : Nat := x % 2 ^ 32

/-- One round of Philox (R274). -/
def philoxRound (k c : Nat × Nat) (d : Nat × Nat) : (Nat × Nat) × (Nat × Nat) :=
  let p0 := 0xD2511F53 * c.1
  let p1 := 0xCD9E8D57 * d.1
  ((Nat.xor (Nat.xor (p1 / 2 ^ 32) c.2) k.1, mask32 p1),
   (Nat.xor (Nat.xor (p0 / 2 ^ 32) d.2) k.2, mask32 p0))

def philoxRounds : Nat → Nat × Nat → Nat × Nat → Nat × Nat → (Nat × Nat) × (Nat × Nat)
  | 0, _, c, d => (c, d)
  | n + 1, k, c, d =>
    let (c', d') := philoxRound k c d
    philoxRounds n (mask32 (k.1 + 0x9E3779B9), mask32 (k.2 + 0xBB67AE85)) c' d'

/-- The registers of stochastic rounding as a word reads them at issue (R273). -/
structure SrRegs where
  seed : W64
  step : W32
  tid : W32
  pos : W64
  deriving DecidableEq, Repr

/-- The random word for element index x (R274). -/
def srWord (g : SrRegs) (x : Nat) : Nat :=
  let i := x / 4
  let (c, d) := philoxRounds 10 (mask32 g.seed.toNat, g.seed.toNat / 2 ^ 32)
    (mask32 i, mask32 (i / 2 ^ 32)) (g.tid.toNat, g.step.toNat)
  match x % 4 with
  | 0 => c.1
  | 1 => c.2
  | 2 => d.1
  | _ => d.2

/-- An engine's rounding state with the stochastic registers read at a word's issue (R270, R273). -/
structure RoundCtx where
  mode : Nat
  sat : Bool
  sr : SrRegs
  deriving DecidableEq, Repr

/-- The rounding of the element at an offset from the base index (R273). -/
def RoundCtx.at (c : RoundCtx) (offset : Nat) : Rounding :=
  ⟨c.mode, c.sat, if c.mode = 5 then srWord c.sr ((c.sr.pos.toNat + offset) % 2 ^ 64) else 0⟩

/-! ### Block formats -/

/-- The value of an MXFP8 element under its scale (R263). -/
def mxValue (scale b : Nat) : Num :=
  if scale % 256 = 255 then .nan else (floatOf (fmtOf tE4M3) b).scale ((scale % 256 : Nat) - 127)

/-- The four elements of an OX4 group of four codes, unscaled, and whether a stray code stands in it
(R264, R265). -/
def ox4Group (c0 c1 c2 c3 : Nat) : List Num × Bool :=
  let int (c : Nat) : Num := numOfInt (signedOf 4 c)
  let zero : Num := .fin false 0 0 false
  let tail (c : Nat) : Num := if c = 8 then zero else int c
  if c0 = 8 then
    ([floatOf (fmtOf tE4M3) (c2 * 16 + c1), zero, zero, tail c3], c3 == 8)
  else if c1 = 8 then
    ([int c0, floatOf (fmtOf tE4M3) (c3 * 16 + c2), zero, zero], false)
  else ([int c0, int c1, tail c2, tail c3], c2 == 8 || c3 == 8)

/-- The unscaled elements of OX4 codes, four at a time. -/
def ox4Groups : List Nat → List Num × Bool
  | c0 :: c1 :: c2 :: c3 :: rest =>
    let (g, s) := ox4Group c0 c1 c2 c3
    let (gs, t) := ox4Groups rest
    (g ++ gs, s || t)
  | _ => ([], false)

/-- The largest magnitude of a list of finite values. -/
def maxMag (xs : List Num) : Num :=
  xs.foldl (fun a x => if a.lt x.abs then x.abs else a) (.fin false 0 0 false)

/-- floor(log2 x) of a nonzero finite value. -/
def floorLog2 : Num → Int
  | .fin _ m e _ => e + (bitLen m : Int) - 1
  | _ => 0

def clampScale (v : Int) : Nat := if v < 0 then 0 else if v > 254 then 254 else v.toNat

/-- A value rounded to E4M3 and clamped to ±448 whatever SAT says (R277). -/
def roundE4M3Clamped (r : Rounding) (x : Num) : WithFlags Nat :=
  let (b, fl) := roundFloat (fmtOf tE4M3) { r with sat := false } x
  if fl &&& flagOverflow ≠ 0 then
    ((if x.isNeg then 0x80 else 0) + 0x7E, flagSaturation + flagInexact)
  else (b, fl)

/-- Quantisation of a block to MXFP8 (R277): the scale, the element bytes, the flags. `rs` gives each
element's rounding. -/
def quantMx (rs : Nat → Rounding) (xs : List Num) : Nat × List Nat × Flags :=
  if xs.any Num.isNaN then (0xFF, xs.map (fun _ => 0x7F), 0)
  else if xs.any Num.isInf then (0xFF, xs.map (fun _ => 0x7F), flagInvalid)
  else
    let a := maxMag xs
    if a.isZero then (0x7F, xs.map (fun x => if x.isNeg then 0x80 else 0), 0)
    else
      let s := clampScale (floorLog2 a - 8 + 127)
      let es := xs.zipIdx.map (fun (x, i) => roundE4M3Clamped (rs i) (x.scale (127 - (s : Int))))
      (s, es.map Prod.fst, es.foldl (fun f e => f ||| e.2) 0)

/-- One slot step of OX4 encoding (R277): `j` is the slot, `skip` the slots still given up and their
codes, `used` whether the group holds an outlier. -/
def ox4Slots (rs : Nat → Rounding) : List (Num × Nat) → Nat → List Nat → Bool → List Nat × Flags
  | [], _, _, _ => ([], 0)
  | (x, i) :: rest, j, skip, used =>
    match skip with
    | c :: skip' =>
      let (cs, f) := ox4Slots rs rest (j + 1) skip' used
      (c :: cs, f ||| (if x.isZero then 0 else flagInexact))
    | [] =>
      match x with
      | .fin neg m e rst =>
        let (q, f0) := roundInteger (rs i) neg m e rst
        if q.natAbs ≤ 7 then
          let (cs, f) := ox4Slots rs rest (j + 1) [] used
          (bitsOfInt 4 q :: cs, f ||| f0)
        else if j ≤ 1 && !used then
          let (b, fb) := roundE4M3Clamped (rs i) x
          let (cs, f) := ox4Slots rs rest (j + 1) [b % 16, b / 16] true
          (8 :: cs, f ||| fb)
        else
          let (cs, f) := ox4Slots rs rest (j + 1) [] used
          (bitsOfInt 4 (if q < 0 then -7 else 7) :: cs, f ||| (flagSaturation + flagInexact))
      | _ => ([], 0)

/-- The elements of a block that are no group's candidate (R277). -/
def ox4NonCandidates : List Num → List Num
  | a :: b :: c :: d :: rest =>
    (if a.abs.lt b.abs then [a, c, d] else [b, c, d]) ++ ox4NonCandidates rest
  | xs => xs

def ox4EncodeGroups (rs : Nat → Rounding) : List (Num × Nat) → List Nat × Flags
  | a :: b :: c :: d :: rest =>
    let (g, f) := ox4Slots rs [a, b, c, d] 0 [] false
    let (gs, f') := ox4EncodeGroups rs rest
    (g ++ gs, f ||| f')
  | _ => ([], 0)

/-- Quantisation of a block to OX4 (R277): the scale, the slot codes, the flags. -/
def quantOx4 (rs : Nat → Rounding) (xs : List Num) : Nat × List Nat × Flags :=
  if xs.any Num.isNaN then (0xFF, xs.map (fun _ => 0), 0)
  else if xs.any Num.isInf then (0xFF, xs.map (fun _ => 0), flagInvalid)
  else
    let a0 := maxMag (ox4NonCandidates xs)
    let a := if a0.isZero then maxMag xs else a0
    if a.isZero then (0x7F, xs.map (fun _ => 0), 0)
    else
      let s := clampScale (floorLog2 a - 2 + 127)
      let scaled := xs.zipIdx.map (fun (x, i) => (x.scale (127 - (s : Int)), i))
      let (cs, f) := ox4EncodeGroups rs scaled
      (s, cs, f)

/-! ### Matrix-array chains -/

/-- A rounded FP32 addition of an accumulator and exact terms (R279): always RNE. -/
def accAdd (t : WithFlags Nat) (terms : WithFlags Num) : WithFlags Nat :=
  let (x, f) := sumExact [floatOf (fmtOf tFP32) t.1, terms.1]
  let (b, g) := roundFloat (fmtOf tFP32) rne x
  (b, t.2 ||| terms.2 ||| f ||| g)

/-- The BF16 chain: one rounding per product (R279). -/
def chainBf16 (t : Nat) (a b : List Num) : WithFlags Nat :=
  (a.zip b).foldl (fun acc p => accAdd acc (mulExact p.1 p.2)) (t, 0)

/-- The exact sum of two products. -/
def pairExact (p q : Num × Num) : WithFlags Num :=
  let (x, f) := mulExact p.1 p.2
  let (y, g) := mulExact q.1 q.2
  let (s, h) := sumExact [x, y]
  (s, f ||| g ||| h)

/-- The E4M3 and E5M2 chain: one rounding per exact pair (R279). -/
def chainFp8 : WithFlags Nat → List (Num × Num) → WithFlags Nat
  | t, p :: q :: rest => chainFp8 (accAdd t (pairExact p q)) rest
  | t, _ => t

/-- The exact unscaled sum of a block of products (R279). -/
def blockExact (ps : List (Num × Num)) : WithFlags Num :=
  let ms := ps.map (fun p => mulExact p.1 p.2)
  let (s, f) := sumExact (ms.map Prod.fst)
  (s, ms.foldl (fun g m => g ||| m.2) f)

/-- The MXFP8 and OX4 chain over blocks with their scales (R279). -/
def chainBlocks (t : WithFlags Nat) : List (List (Num × Num) × Nat × Nat) → WithFlags Nat
  | [] => t
  | (ps, sa, sb) :: rest =>
    let (e, f) := blockExact ps
    let (w, g) :=
      if sa = 255 || sb = 255 then ((fmtOf tFP32).nanBits, 0)
      else roundFloat (fmtOf tFP32) rne (e.scale ((sa : Int) + sb - 254))
    chainBlocks (accAdd t (floatOf (fmtOf tFP32) w, f ||| g)) rest

end Sys2Proof.Machine
end

