-- ==== Sys2Proof/Machine/CoreTypes.lean ====
section
/-!
DEFINITION. The plain data of one Dratin core: registers, tiles, matrix array, rings, values, queues
and the operations in flight (spec/06 to 09 and 12 to 18). Engine codes are 0 S, 1 V, 2 M, 3 T, 4 L,
5 W, 6 Y, 7 X (R285). A tide is a natural number; the TIDE register is its low 64 bits.
-/

namespace Sys2Proof.Machine

/-! ### Tiles -/

/-- A tile register: the state bits of R144, the row cursor and shape word of R337, the 8 KiB of
elements and the scale sideband of R258. `held` and `ret` are the marks of R145: held at handler
entry, and the kernel's tile to come back absent. -/
structure Tile where
  c : Bool := false
  d : Bool := false
  z : Bool := false
  a : Bool := false
  cur : Nat := 0
  shape : W32 := 0
  data : Memory := []
  side : Memory := []
  held : Bool := false
  ret : Option (W32 × Nat × Bool) := none
  deriving DecidableEq, Repr

/-! ### Rings -/

/-- A ring (R162 to R166): its configuration word, the four counts, CKD, the positions published and
released ahead of their prefix, the slot tags, the positions that RCON took and RREL has not yet
released, the M read point (R362), and a count of configurations, which cancels reservations
(R162). -/
structure Ring where
  cfg : W64 := 0
  rsv : W32 := 0
  pub : W32 := 0
  con : W32 := 0
  rel : W32 := 0
  ckd : Bool := false
  published : List W32 := []
  released : List W32 := []
  tags : Sparse W16 := []
  mread : Nat := 0
  gen : Nat := 0
  deriving DecidableEq, Repr

/-! ### Values -/

/-- The state of a heap block (R179). -/
inductive BlockState where
  | free
  | live
  | cooling
  | reuse
  deriving DecidableEq, Repr

/-- An entry of the count table (R179), with the number of untimed readers that hold the value
(R188). -/
structure Block where
  state : BlockState := .free
  head : Bool := false
  len : Nat := 0
  count : Nat := 0
  tag : W16 := 0
  shape : W32 := 0
  recl : Nat := 0
  holds : Nat := 0
  deriving DecidableEq, Repr

/-! ### Matrix array -/

/-- A weight plane (R362): its recorded type WT, which an MWLD sets at its issue, and its content, which takes
its place at issue + 132 (R369): the type of the columns that stand there, the columns and the scales. -/
structure Plane where
  wt : Nat := 2
  ct : Nat := 2
  cols : Memory := []
  scales : Memory := []
  deriving DecidableEq, Repr

/-- An occupancy of a plane by an M word (R371): first and last tide, whether it is an MWLD. -/
structure Occupancy where
  plane : Nat
  first : Nat
  last : Nat
  load : Bool
  ord : Nat
  deriving DecidableEq, Repr

/-! ### Streams -/

/-- A word in a queue, with what fetch knows of the gateless loops around it (R315): the loop depths
whose first body word of iteration 0 it is, the depth and offset it is timed from when it is the
first body word of a later iteration, the tides to skip for loops that held no word of its queue,
and whether it is misplaced: a LOOP, ENDL or HALT against R317 and R318, or a GUARD against R300. -/
structure QWord where
  addr : Nat
  word : W32
  enter : List Nat := []
  rebase : Option (Nat × Nat) := none
  skip : Nat := 0
  bad : Bool := false
  deriving DecidableEq, Repr

/-- One of the eight queues (R123, R124): its words; `nxt` is the issue point plus 1; `arrived` after
its GATE; the issue points plus 1 before each open loop's body; the result of a GUARD that has been
read for the next word. -/
structure Queue where
  words : List QWord := []
  nxt : Nat := 0
  arrived : Bool := false
  qentry : Sparse Nat := []
  guard : Option Bool := none
  deriving DecidableEq, Repr

/-- A loop that fetch has open (R315, R316): the address of its LOOP, its iteration, its trip count,
its period, the queues that have had a body word in this iteration and in any iteration, the GATE
words in its body, the skips pending at its LOOP, and whether its body has a refused shape. -/
structure LoopFrame where
  addr : Nat
  iter : Nat
  trips : Nat
  period : Nat
  seen : List Nat := []
  ever : List Nat := []
  gates : Nat := 0
  skips : Sparse Nat := []
  bad : Bool := false
  deriving DecidableEq, Repr

/-- What a translated access reaches (R169, R172): device memory by DPA, in plaintext or under a key slot
(R66), another package with the partition that sends (R42), host memory, or a transport endpoint. -/
inductive Target where
  | device (dpa : Nat)
  | cipher (dpa : Nat) (key : Nat)
  | pod (part index : Nat) (off : Nat)
  | host (addr : Nat)
  | transport (pod off : Nat)
  deriving DecidableEq, Repr

/-- The place in device memory that a target names. -/
def Target.dpa : Target → Option Nat
  | .device a => some a
  | .cipher a _ => some a
  | .pod _ _ _ => none
  | .host _ => none
  | .transport _ _ => none

/-- The unit that a gate-class memory word names (R409): a cohort address, or a global address with
its target and its translation entry, held until the gate opens. -/
inductive LockAt where
  | cohort (addr : Nat)
  | global (va : Nat) (target : Target) (entry : Nat)
  deriving DecidableEq, Repr

/-- The gate-class words (R129). -/
inductive GateClass where
  | plain
  | bar (set : Option (Nat × Nat)) (scope order : Nat)
  | waitf (flag : Nat) (target : W32) (scope order : Nat)
  | rlk (unit : LockAt) (scope order : Nat)
  | wlk (unit : LockAt) (scope order : Nat)
  | rcon (d ring : Nat)
  | take (d : Nat) (unit : LockAt) (scope order : Nat)
  | talign (target : W64)
  | talignM (modulus : W64)
  deriving DecidableEq, Repr

/-- The gate of the running segment (R129 to R131, R416): the class that its gate-class word set, the
address and the engine of that word, the tide at which the core arrived, whether the condition has come to hold
(with the value a TAKE found), the tide of the attempt under way, and WLK's registration; and the tide from which
the core waits at it, though a queue that lacks its GATE keeps it from arriving (R295). -/
structure Gate where
  cls : GateClass := .plain
  word : Option Nat := none
  eng : Nat := 0
  arrived : Option Nat := none
  holds : Bool := false
  value : W64 := 0
  busy : Bool := false
  reg : Bool := false
  attempts : Nat := 0
  /-- What the releases cover that a successful attempt on cohort memory has read (R200). -/
  covers : List Nat := []
  waits : Option Nat := none
  deriving DecidableEq, Repr

/-- The first word of a segment, with the loops open there: address, iteration, trips (R333). -/
structure SegMark where
  addr : Nat
  loops : List (Nat × Nat × Nat)
  deriving DecidableEq, Repr

/-- A handler whose word has met a translation miss, or a full buffer (R173, R174): the tide of that issue, whether it
waits for room, and the tide from which it goes on, once that is known (log 14). -/
structure HandlerWait where
  f : Nat
  room : Bool := false
  resume : Option Nat := none
  deriving DecidableEq, Repr

/-- What a handler sets aside and what the kernel resumes with (R142, R379): the queues, the fetch
state, the gate and the format queue. `segFirst` says that the next word fetched stands at the start
of a segment (R316), `afterGate` that the last word fetched was the last of a segment's GATE words,
`gated` counts the GATE words of each queue beyond the segments passed, `guarding` names the engine
of a GUARD fetched last, and `segs` holds the segment starts that fetch has passed and issue has not
reached. -/
structure Stream where
  queues : Vector Queue 8 := Vector.replicate 8 {}
  pc : Nat := 0
  fetching : Bool := false
  loops : List LoopFrame := []
  skips : Sparse Nat := []
  gate : Gate := {}
  fmtq : List W64 := []
  segFirst : Bool := true
  afterGate : Bool := false
  gated : Sparse Nat := []
  guarding : Option Nat := none
  segs : List SegMark := []
  wait : Option HandlerWait := none
  deriving DecidableEq, Repr

/-! ### Operations in flight -/

/-- Where the bytes of a transfer go or come from. -/
inductive Place where
  | scratch (off : Nat)
  | cohort (addr : Nat)
  | global (va : Nat)
  deriving DecidableEq, Repr

/-- Atomic operations of the Y engine on one unit (R414 to R417, R425). -/
inductive Rmw where
  | atom (op : Nat) (w32 : Bool) (v : W64)
  | cas (expected new : W64)
  | rul
  | wul
  | rlk
  | wlk (reg : Bool)
  | withdraw
  | fill (v : W64)
  | take
  deriving DecidableEq, Repr

/-- A location outside global memory that carries a release (R200, R201): a flag at the value to which a signal
raised it (R440), or bytes of cohort memory. -/
inductive CoverKey where
  | flag (core f : Nat) (value : W32)
  | cohort (addr len : Nat)
  deriving DecidableEq, Repr

/-- A release at such a location (R203): its core, that core's task, its scope, and the accesses that
it covers and that were not performed when it issued. -/
structure Cover where
  key : CoverKey
  core : Nat
  task : Option Nat
  scope : Nat
  ids : List Nat
  deriving DecidableEq, Repr

/-- The acquire and the release of an atomic at cohort memory: the scope and the request that the
acquire arms, the scope and what the release covers. -/
structure Sync where
  acq : Option (Nat × Nat) := none
  rel : Option (Nat × List Nat) := none
  deriving DecidableEq, Repr

/-- A KV translation segment (R228). -/
structure KvSegment where
  desc : W64 := 0
  entries : List W64 := []
  deriving DecidableEq, Repr

/-- What a word does at a perform tide. Values that the word read at its issue stand in the
operation; what it reads at the perform tide is named. -/
inductive POp where
  /-- A use of banks alone (R325, R388). -/
  | use
  /-- A scalar register (R303). -/
  | reg (r : Nat) (v : W64)
  /-- A load of `size` bytes into a register from scratchpad or cohort memory (R385, R413). -/
  | load (r : Nat) (p : Place) (size : Nat) (sx : Bool)
  /-- A load through a value handle (R385): the tag is checked at the read. -/
  | loadValue (r : Nat) (handle : W64) (off size : Nat) (sx : Bool)
  /-- Bytes stored to scratchpad or cohort memory. -/
  | store (p : Place) (bytes : List Byte)
  /-- An atomic, lock release or fill on scratchpad or cohort memory; `r` takes the old unit. -/
  | rmw (r : Nat) (p : Place) (op : Rmw) (ptr : W64) (sync : Sync)
  /-- The acquire of a load that performs with it, and the release of a store or signal. -/
  | acquire (key : CoverKey) (scope req : Nat)
  | release (key : CoverKey) (scope : Nat) (ids : List Nat)
  /-- Bytes of a tile's image, from the image offset; `last` sets D and clears Z. -/
  | tileBytes (t : Nat) (elems : Nat) (off : Nat) (bytes : List Byte)
  /-- A row or column write known at issue: byte writes into the elements and the sideband, with the
  engine's flag bits. -/
  | tileWrite (t : Nat) (data side : List (Nat × List Byte)) (flags : Flags)
  /-- A read of scratchpad or cohort bytes into a tile's image (R382). -/
  | tileLoad (t : Nat) (elems : Nat) (off : Nat) (p : Place) (len : Nat)
  /-- A row of a tile read from memory (R386, R388). -/
  | rowLoad (t : Nat) (off : Nat) (p : Place) (len : Nat)
  /-- A result record into triple form (R386). -/
  | tripLoad (t : Nat) (row : Nat) (p : Place)
  /-- A tile's configuration: shape, C, D, Z, and the cursor (R339, R343, R346). -/
  | tileCfg (t : Nat) (shape : W32) (d : Bool) (cur : Nat)
  | tileZero (t : Nat)
  | cursor (t : Nat) (cur : Nat)
  /-- A decoded transpose (R387): source bytes gathered in beats, then the write at issue + 134. -/
  | ldtrRead (t : Nat) (shape : W32) (off len : Nat) (beat : Nat)
  | ldtrWrite (t : Nat) (shape : W32)
  /-- Value copies (R185, R346): a line read, then its write one tide later. -/
  | lineRead (src : Nat) (handle : Option W64) (dst : Nat) (patch : List (Nat × Byte))
  | lineToTile (src : Nat) (handle : W64) (t : Nat) (elems total : Nat) (off : Nat)
  | tileToLine (t : Nat) (elems total : Nat) (off : Nat) (dst : Nat)
  /-- The scales of a value at the tail of its image, placed as its last line lands (R346). -/
  | tileScales (t : Nat) (elems : Nat) (bytes : List Byte)
  /-- Status registers, a read of KSTAT into a register (R165), the format queue, and the setting of FLAGS
  bits. -/
  | csr (n : Nat) (v : W64)
  | kstat (r n : Nat)
  | fmtPush (v : W64)
  | flagBits (e : Nat) (f : Flags)
  /-- Ring counts (R423, R401); a reservation may write a register with the first position, and may
  serve the page scans of a query. -/
  | ringReserve (k n d : Nat) (query : Option Nat)
  | ringPublish (k : Nat) (p : W32)
  | ringRelease (k : Nat) (p : W32)
  /-- A flag of this core (R421). -/
  | signal (f : Nat)
  /-- Matrix words (R369 to R376): bytes of a slot read into the buffer under a key; the plane loaded
  from it; the accumulator row of a streamed row; a drained row; rows cleared; the first tide of two
  overlapping occupancies. -/
  | mRead (key off len : Nat)
  | mPlane (q wt rows key : Nat)
  | mAcc (bwd : Bool) (acc q row ty key tail : Nat)
  | mDrain (acc row t trow : Nat) (shape : W32) (sc : Nat) (z : Bool) (ctx : RoundCtx)
  | mClear (acc rows : Nat)
  | mRetire (k : Nat) (keys : List Nat)
  | planeClash (q : Nat)
  /-- The read of a token image, a task record or a KVTL image (R395, R402, R427). -/
  | kvaRead (off : Nat) (req : Nat)
  | spawnRead (req off : Nat)
  | kvBeat (n : Nat) (lock : Bool) (off : Nat) (head : List Byte)
  | kvSegment (n : Nat) (g : KvSegment)
  | kvUnlock (n : Nat)
  deriving DecidableEq, Repr

/-- An operation in flight: the tide at which it performs, its engine, the issue number of its word,
the banks it uses at that tide, whether its word is an exposed operation (R128), and whether it is a
handler's. -/
structure Perform where
  at_ : Nat
  eng : Nat
  ord : Nat
  op : POp
  banks : List Nat := []
  exposed : Bool := true
  handler : Bool := false
  deriving DecidableEq, Repr

/-- A destination that an asynchronous result will write (R383), with the issue tide of the word that
marked it and, where the landing's tide is fixed at issue, that tide. -/
inductive PendDest where
  | reg (r : Nat)
  | tile (t : Nat)
  | value (b : Nat)
  deriving DecidableEq, Repr

structure Pending where
  dest : PendDest
  marked : Nat
  fixed : Option Nat := none
  deriving DecidableEq, Repr

/-! ### Global accesses -/

/-- A piece of a global access: the bytes of one translated run. -/
structure Piece where
  va : Nat
  target : Target
  len : Nat
  deriving DecidableEq, Repr

/-- What a global access does when it is performed at its home (R198, R382, R410). -/
inductive GOp where
  | load (r : Nat) (size : Nat) (sx : Bool)
  | loadTile (t elems : Nat) (len : Nat)
  | loadRow (t off len : Nat)
  | loadRows (t : Nat) (rowBytes : Nat)
  | loadValue (head len : Nat)
  /-- A load of a value whose data is on its way into the heap (R157). -/
  | landing (head len : Nat)
  | store (bytes : List Byte)
  | storeValue (head off len : Nat)
  | rmw (r : Nat) (op : Rmw) (ptr : W64)
  | fence
  | rfence
  /-- The acquire of a location outside global memory (R200): it has performed, and the accesses that
  the release it read covers. -/
  | acquired (armed : Bool) (ids : List Nat)
  /-- A signal to a core of another gang (R421), and a spawn (R427) with the record once it is read. -/
  | signal (core flag : Nat)
  | spawn (r : Nat) (q : W64) (record : List W64)
  deriving DecidableEq, Repr

/-- A global access, a fence or an RFENCE of a core, in core order (R197, R206): its issue tide, engine
and word, scope and order, the translation entries whose counts it holds, the tide from which its
message may reach its home, whether it waits at a gate, and whether it is a release that waits for
acknowledgements while its gang is stopped, and performs after the resume (R212). -/
structure GReq where
  id : Nat
  issued : Nat
  eng : Nat
  ord : Nat := 0
  op : GOp
  pieces : List Piece
  scope : Nat := 0
  order : Nat := 0
  tlb : List Nat := []
  ready : Nat := 0
  gate : Bool := false
  parked : Bool := false
  deriving DecidableEq, Repr

/-- A near-memory request that awaits its acknowledgement (R207), with its task, the fault that an error
acknowledgement raises, the translation entries that it holds, the KV page that it names, and the place that a
reduction changes. -/
structure NearReq where
  id : Nat
  task : Option Nat := none
  issued : Nat
  acked : Bool := false
  error : Option (Byte × W64) := none
  tlb : List Nat := []
  pages : List Nat := []
  target : Option Target := none
  deriving DecidableEq, Repr

/-! ### Translation -/

/-- The page kinds of R169. -/
inductive PageKind where
  | owned (w : Bool)
  | shared
  | kv
  deriving DecidableEq, Repr

/-- What a global access is, for the checks of R170 and R171. -/
inductive Access where
  | load
  | store
  | atomic
  | reduce
  | append
  | apply
  | command
  | commandStore
  deriving DecidableEq, Repr

/-! ### Commands and chains -/

/-- A translation-buffer entry (R172 to R175): the page and its size, target, kind, key, frame, the
in-flight count, whether it is dying, and the partition whose tables gave it. -/
structure TlbEntry where
  id : Nat
  va : Nat
  size : Nat
  tgt : Nat
  kind : PageKind
  key : Nat
  pod : Nat
  frame : Nat
  count : Nat := 0
  dying : Bool := false
  part : Nat := 0
  deriving DecidableEq, Repr

/-- The states of an engine command (R327): waiting; waiting for the slot whose position it has taken from CON;
moving data since a tide, from another tide on where none of its data lies outside the package; or having moved
all of it, or as much as a fault let it. -/
inductive CmdState where
  | posted
  | taken
  | moving (start : Nat) (ready : Option Nat)
  | moved (start : Nat) (fault : Option (Nat × W64))
  deriving DecidableEq, Repr

/-- How far a command has moved its data: the elements moved, the bytes that have been read for the next one, the
line in which the last one was read, the corrected errors met, since when the next access waits for its bank
(R157), and, where a stop or the end of its gang has cut it short, the elements that it still moves and the status in
which it ends (R118, R463). -/
structure Progress where
  next : Nat := 0
  bytes : Option (List Byte) := none
  line : Option Int := none
  fixed : Nat := 0
  since : Nat := 0
  limit : Option (Nat × Nat) := none
  deriving DecidableEq, Repr

/-- An engine command or a running chain entry (R326 to R330): its sixteen words, the slot of its
chain, its repeat, the tide from which it may start, its ring position and the configuration count of
its ring when it was posted, the pages of its bases, the first block and the length of the value that its
source holds (R188), and how far it has moved its data. -/
structure Command where
  id : Nat
  words : List W64
  slot : Option Nat := none
  rep : Nat := 0
  state : CmdState := .posted
  ready : Nat := 0
  pos : W32 := 0
  gen : Nat := 0
  pages : List TlbEntry := []
  hold : Option (Nat × Nat) := none
  moves : Progress := {}
  deriving DecidableEq, Repr

/-- A chain slot (R320, R329): CHSTAT fields, the next entry, the repeats done of the entry under way and its
words, whether a stop was asked for and when, the number that stands for its CHK in core order, and the tide
from which it may fetch. -/
structure Chain where
  run : Bool := false
  err : Bool := false
  lnk : Bool := false
  done : W32 := 0
  next : W64 := 0
  rep : Nat := 0
  entry : List W64 := []
  stop : Option Nat := none
  after : Nat := 0
  ready : Nat := 0
  deriving DecidableEq, Repr

/-- A line on its way into a core's scratchpad as untimed data (R157): whose it is, since when it waits for its
bank, and its bytes; one with no bytes is a line that is read (R146). -/
structure Arriving where
  id : Nat
  since : Nat
  off : Nat
  bytes : List Byte
  deriving DecidableEq, Repr

/-- The lease states of an instruction-store row (R110). -/
inductive LeaseState where
  | loading
  | next
  | live
  deriving DecidableEq, Repr

/-- A lease of one instruction-store row: the task it serves, the kernel row, its state. A row with
no lease is Free. -/
structure Lease where
  task : Nat
  row : Nat
  state : LeaseState
  deriving DecidableEq, Repr

/-- The epilogue of a segment (R117, R334): whether CKPT has issued in it, and the global writes that
its closing gate waits for. -/
structure Epilogue where
  active : Bool := false
  writes : List Nat := []
  deriving DecidableEq, Repr

/-- Why a core does not issue (R135, R137, R142). -/
inductive CoreMode where
  /-- Runs no task. -/
  | idle
  /-- Issues its stream. -/
  | running
  /-- Stopped: it issues nothing until its gang resumes. -/
  | frozen
  /-- Runs its handler. -/
  | handler
  /-- Has issued HALT. -/
  | halted
  /-- Halted with everything performed and retired. -/
  | quiet
  deriving DecidableEq, Repr

/-- One core. -/
structure Core where
  task : Option Nat := none
  vid : Nat := 0
  gidx : Nat := 0
  part : Nat := 0
  mode : CoreMode := .idle
  sreg : Vector W64 32 := Vector.replicate 32 0
  pend : List Pending := []
  tiles : Vector Tile 16 := Vector.replicate 16 {}
  acc : Sparse W32 := []
  planes : Vector Plane 2 := Vector.replicate 2 {}
  act : Nat := 0
  occ : List Occupancy := []
  mbuf : Sparse (List Byte) := []
  scratch : Memory := []
  rings : Vector Ring 16 := Vector.replicate 16 {}
  flags : Vector W32 32 := Vector.replicate 32 0
  vheap : W64 := 0
  blocks : Sparse Block := []
  reuse : Option (Nat × Nat) := none
  tbase : Nat := 0
  slip : Nat := 0
  hmode : W64 := 0
  fcause : W64 := 0
  finfo : W64 := 0
  ffr : Vector W64 8 := Vector.replicate 8 0
  trapvec : W64 := 0
  tsave : W64 := 0
  parea : W64 := 0
  fflags : BitVec 20 := 0
  sr : SrRegs := ⟨0, 0, 0, 0⟩
  rmodes : Vector (Nat × Bool) 3 := Vector.replicate 3 (0, false)
  chains : Vector Chain 8 := Vector.replicate 8 {}
  kvseg : Vector KvSegment 16 := Vector.replicate 16 {}
  tlb : List TlbEntry := []
  istore : Sparse W32 := []
  lease : Sparse Lease := []
  stream : Stream := {}
  saved : Option Stream := none
  inflight : List Perform := []
  /-- Operations captured by a stop (R135, R137), to perform at their shifted tides. -/
  captured : List Perform := []
  /-- Words that issue at or before this tide have had their presence check (R133). -/
  checked : Nat := 0
  /-- The walk under way for a word that stands at its queue's head (R173): engine, address, access,
  and the event that reported it to the host (R72). -/
  walk : Option (Nat × Nat × Access × Option Nat) := none
  reqs : List GReq := []
  near : List NearReq := []
  /-- The tides of the last acknowledgement that has landed for the task, and of the last that an RFENCE which is
  over has waited for (R411). -/
  ackedAt : Nat := 0
  fencedAt : Nat := 0
  cmds : List Command := []
  /-- Group requests and optimiser steps that have not ended, with the translation entries that they hold
  (R174). -/
  services : List (Nat × List Nat) := []
  /-- Untimed data that waits for its banks, in the order of arrival (R157). -/
  arriving : List Arriving := []
  /-- The banks of scratchpad that had a use in the last tide, each with the access that had it: 0 for one that
  shares it with none, else a command's access to a line (R157). -/
  bankUse : List (Nat × Nat) := []
  epi : Epilogue := {}
  /-- The first tide at which the core, stopped, issues no word. -/
  stopAt : Option Nat := none
  /-- The tide at which the core's segment's gate opened (R133). -/
  gateOpen : Nat := 0
  /-- The tide at which HALT issued. -/
  haltTide : Nat := 0
  /-- Whether the core has been quiet since (R113). -/
  wentQuiet : Bool := false
  /-- TBASE of the kernel while the core's handler runs. -/
  kbase : Nat := 0
  /-- Kernel rows of the core's own task, and of its successor, that the loader has started (R110). -/
  started : Nat := 0
  ahead : Nat := 0
  /-- A number for each word issued, for each global access, and for each command. -/
  ord : Nat := 0
  deriving DecidableEq, Repr

end Sys2Proof.Machine
end

