-- ==== Sys2Proof/Machine/PackageTypes.lean ====
section
/-!
DEFINITION. The plain data of the package around the cores: host functions, partitions, links,
tasks, graphs, memory services and the breakwater (spec/01 to 05, 10 and 11).
-/

namespace Sys2Proof.Machine

/-! ### Host interface -/

/-- A work queue (R54). -/
structure WorkQueue where
  base : W64 := 0
  en : Bool := false
  loc : Bool := false
  irq : Bool := false
  err : Bool := false
  log2n : Nat := 0
  vec : Nat := 0
  tail : W32 := 0
  head : W32 := 0
  deriving DecidableEq, Repr

/-- A mailbox command in progress (R67): its code and a copy of its parameters. -/
structure MailJob where
  code : Nat
  part : Nat
  params : Memory
  deriving DecidableEq, Repr

/-- The registers of one PCIe function: events (R73), spawn overflow (R51, R96) with each spilled
record's queue and place in the overflow area, invalidation (R175) with the range that XIGO named, whether its
entries have yet to be marked, and the tasks whose translations it waits for, and security mailbox (R68), and
whether a function-level reset is under way, with the tasks that it ended (R64). Function 0 is PF0. -/
structure Func where
  eqbase : W64 := 0
  eqen : Bool := false
  eqlog : Nat := 0
  eqtail : W32 := 0
  eqhead : W32 := 0
  eqovf : W32 := 0
  seq : W32 := 0
  ovbase : W64 := 0
  ovsize : Nat := 0
  spills : List (Nat × Nat) := []
  xiva : W64 := 0
  xicnt : W32 := 0
  xbusy : Bool := false
  xmark : Bool := false
  xfirst : Nat := 0
  xpages : Nat := 0
  xdone : W32 := 0
  xtasks : List Nat := []
  mbbusy : Bool := false
  mbresult : Byte := 0
  mbpart : Nat := 0
  mbin : Memory := []
  mbout : Memory := []
  mbjob : Option MailJob := none
  nonce : Option (List Byte) := none
  flr : Bool := false
  flrTasks : List Nat := []
  deriving DecidableEq, Repr

/-- The states of a partition (R61). -/
inductive PartState where
  | stopped
  | running
  | resetting
  deriving DecidableEq, Repr

/-- A partition block (R61), with the cores whose retirement bars admission (R74). -/
structure Partition where
  pcoh : W32 := 0
  rng : Vector W64 16 := Vector.replicate 16 0
  pvf : BitVec 256 := 0
  wdog : W32 := 0
  state : PartState := .stopped
  wq : Bool := false
  hm : BitVec 4 := 0
  perr : W32 := 0
  retired : List Nat := []
  deriving DecidableEq, Repr

/-- Recovery and bring-up (R23, R24, R50). -/
inductive Boot where
  | phase (n : Nat)
  | recovery
  | ready
  | fatal
  deriving DecidableEq, Repr

/-- An answer that leaves the package: to the host, to another package, to a requester that R39 and R42
refuse, or a report through management of the phase of bring-up that found no die (R25). -/
inductive Reply where
  | bar2Read (vf : Nat) (data : List Byte)
  | ualinkData (data : List Byte)
  | ualinkOk
  | ualinkError
  | management (phase : Nat)
  deriving DecidableEq, Repr

/-- A transfer that leaves the package: a gathered write of records (R40), an access to another
package with the pod index and the partition of its sender (R37, R42), a bulk transfer (R44). -/
inductive Outgoing where
  | inboxWrite (core home station : Nat) (data : List Byte)
  | access (die home station src spart off : Nat) (op : RemoteOp)
  | ethernet (id pod off : Nat) (data : List Byte)
  deriving DecidableEq, Repr

/-- What the outside does without a step of the package's own: the host writes its memory (R54), an ECC error
makes a line of device memory or of a group's staging unreadable, or one that reads correct (R223, R235, R243),
or strikes a row of a bank or makes its page headers read corrected, the package draws another power (R20), its
hottest junction has another temperature (R22), or a die's tide count goes wrong by some tc (R18). -/
inductive Stroke where
  | power (watts : Nat)
  | heat (celsius : Nat)
  | tideSkew (die : Nat) (by_ : W64)
  | hostWrite (addr : Nat) (data : List Byte)
  | lineLost (line : Nat)
  | lineCorrected (line : Nat)
  | rowLost (bank row : Nat)
  | headersCorrected (bank : Nat)
  | stageLost (group cont line : Nat)
  | stageCorrected (group cont line : Nat)
  deriving DecidableEq, Repr

/-! ### Tasks and gangs -/

/-- The states of R112. -/
inductive TaskState where
  | ready
  | reserved
  | loading
  | running
  | stopping
  | parked
  | ending
  | done
  deriving DecidableEq, Repr

/-- Why a gang is stopped. -/
inductive StopKind where
  /-- A schedule miss with SCHMISS 0 (R135): the plane's missing operands. -/
  | slip
  /-- A schedule miss with SCHMISS 1 (R136). -/
  | missTrap
  /-- A fault freeze (R137). -/
  | fault
  /-- A translation-buffer miss (R173), or its report to the host (R72). -/
  | walk (host : Bool)
  /-- A pre-emption stop (R118), or the stop of a reset (R63, R64). -/
  | preempt
  deriving DecidableEq, Repr

/-- What a slip waits for (R133). -/
inductive Missing where
  | slot (core ring : Nat) (p : W32)
  | room (core ring : Nat) (p : W32)
  | word (core eng tide : Nat)
  | dest (core : Nat) (d : PendDest)
  | tile (core t : Nat)
  | acks (core upto : Nat)
  /-- The acknowledgement of a request that issues in the tc of the word that follows it: it cannot come. -/
  | unissued (core : Nat)
  | hold (core block : Nat)
  | buffer (core : Nat)
  deriving DecidableEq, Repr

/-- A stop of a gang: its kind, the tide F or F0, the plane, the tide at which the last core
freezes, what is missing and the tide of its arrival, the core that asked, the resume tide once
known, the cores whose handlers have begun, and, where misses trap, each core that missed with its
engine and FINFO. -/
structure Stop where
  kind : StopKind
  f : Nat
  plane : Nat
  allFrozen : Nat
  missing : List Missing := []
  core : Nat := 0
  since : Nat := 0
  resume : Option Nat := none
  handlers : List Nat := []
  traps : List (Nat × Nat × W64) := []
  deriving DecidableEq, Repr

/-- A task's status once it is to end: status, cause, detail. -/
structure Verdict where
  status : Byte
  cause : Byte
  detail : W32
  deriving DecidableEq, Repr

/-- A task (R56, R98 to R120): its record, function, queue and partition; the graph and node that it is
one of; its state, owner die and ready tide; its image header and stream map; the pages translated at its
take (R100); the cores that it holds or runs on, in gang order; whether it is a reservation candidate; the
tide of its admission, the placement tide, its start tides, RUN and launch
block; H and D (R130); the stop in force; whether a pre-emption is asked for and whether it is shielded;
the counts of its restart header; corrected errors, the verdict that ends it, and END. -/
structure Task where
  record : List W64
  vf : Nat
  queue : Nat := 0
  part : Nat
  node : Option (Nat × Nat) := none
  state : TaskState := .ready
  owner : Nat := 0
  readyTide : Nat := 0
  header : List W64 := []
  map : List Byte := []
  pages : List TlbEntry := []
  cores : List Nat := []
  candidate : Bool := false
  decision : Nat := 0
  placement : Option Nat := none
  start : Nat := 0
  first : Nat := 0
  run : W64 := 0
  launch : List W64 := []
  hmode : W64 := 0
  h : Nat := 8
  d : Nat := 16
  stop : Option Stop := none
  preempt : Bool := false
  shielded : Bool := false
  commits : Nat := 0
  preempts : Nat := 0
  lastc : Nat := 0
  lost : Nat := 0
  ncorr : Nat := 0
  verdict : Option Verdict := none
  endTide : Option Nat := none
  deriving DecidableEq, Repr

/-- A die's scheduler (R101 to R108): current partition and deficit by class, the reservation, the place
in the rotation of its queues, and the tide of its next visit. -/
structure DieSched where
  cur : Vector Nat 4 := Vector.replicate 4 0
  deficit : Sparse Int := []
  reservation : Option Nat := none
  rot : Nat := 0
  visit : Nat := 0
  deriving DecidableEq, Repr

/-! ### Graphs -/

inductive GraphState where
  | running
  | draining
  | done
  deriving DecidableEq, Repr

/-- A graph (R80 to R95): its task record, function, queue and partition, its physical die; its nodes; the
node that is ready or under way, whether it is under way and since when; trip counts; outstanding NOWAIT
nodes; the corrected errors of its nodes; the failure first recorded, as node, cause and detail; the tide
of the take; whether it is aborted; and the count that a loop node which has been left has yet to store. -/
structure Graph where
  record : List W64
  vf : Nat
  queue : Nat
  part : Nat
  die : Nat
  nodes : List (List W64)
  records : Nat := nodes.length
  state : GraphState := .running
  at_ : Nat := 0
  waiting : Bool := false
  since : Nat := 0
  counts : Sparse Nat := []
  nowait : List Nat := []
  ncorr : Nat := 0
  corrected : Bool := false
  fail : Option (Nat × Nat × Nat) := none
  taken : Nat := 0
  aborted : Bool := false
  leaving : Option Nat := none
  deriving DecidableEq, Repr

/-- A copy node under way (R87): its graph and node, its ends and length, the tide of its start, whether
it crosses to a remote pod (R44), and the cause that ends it, with the detail where a rule states one. -/
structure CopyJob where
  id : Nat
  graph : Nat
  node : Nat
  src : Nat
  dst : Nat
  len : Nat
  start : Nat
  ether : Bool := false
  failed : Option (Nat × Option Nat) := none
  deriving DecidableEq, Repr

/-! ### Messages to the base dies -/

/-- What a request to a base die asks (R221, R227, R239 to R242, R252). -/
inductive MsgKind where
  | red (op : Nat) (dpa : Nat) (val : W32)
  | kvAppend (page : Nat) (tag : W16) (start : Bool) (fmt : Nat) (token : List Byte) (range : Bool)
  | kvRescale (page : Nat) (tag : W16) (v : Bool) (scale : Nat)
  | kvFork (page : Nat) (tag : W16) (dst : Nat)
  | kvRelease (page : Nat) (tag : W16)
  | groupOpen (desc : List W64) (dst : Nat) (compl : Target) (die : Nat)
  | bws (gid cont tile : Nat) (data : List W32) (run : W64)
  | bwc (gid cont : Nat) (run : W64)
  | bwa (gid cont : Nat) (run : W64)
  | opts (desc : List W64) (arrays : List Nat) (compl : Target) (die : Nat)
  deriving DecidableEq, Repr

/-- A step of the optimiser under way (R254): the next line, the lines left unchanged, the corrected reads, and
the group status that it has acquired. -/
structure OptRun where
  line : Nat := 0
  bad : Nat := 0
  fixed : Nat := 0
  last : Nat
  deriving DecidableEq, Repr

/-- A request on its way to a base die or accepted by it: the issuing core (none for a record from
another package), partition, stack, the register that takes a status, the tide from which it may be
accepted, for a record from or to another package the number of its inbox write or the home package,
the FINFO of an error acknowledgement, for an optimiser step the group that it waits for and how far it
has come, and the virtual function of its task. -/
structure Msg where
  id : Nat
  core : Option Nat
  task : Nat := 0
  part : Nat
  stack : Nat
  kind : MsgKind
  reg : Nat := 0
  ready : Nat := 0
  accepted : Bool := false
  remote : Option Nat := none
  info : W64 := 0
  group : Option Nat := none
  run : Option OptRun := none
  vf : Nat := 0
  deriving DecidableEq, Repr

/-- An answer on its way back to a core: an acknowledgement with its error, and a status; `lost` says
that the home package discarded the record (R41), and `station` names the station over which it comes. -/
structure Ack where
  id : Nat
  core : Nat
  task : Nat
  due : Nat
  msg : Nat
  reg : Nat
  status : Option W64
  error : Option (Byte × W64) := none
  near : Bool := true
  lost : Bool := false
  station : Option Nat := none
  deriving DecidableEq, Repr

/-! ### Attention -/

inductive ScanState where
  | posted
  | queued
  /-- The lines that it will have read, the places of those corrected among them, and the record. -/
  | scanning (lines : Nat) (fixed : List Nat) (record : List Byte)
  | writing (record : List Byte)
  /-- The record is on its way into its slot (R157). -/
  | landing
  deriving DecidableEq, Repr

/-- One page scan of a query (R230 to R233): its place among the pages of its query, and the ring
position and configuration count of its slot once the reservation has performed. -/
structure PageScan where
  id : Nat
  core : Nat
  task : Nat
  page : Nat
  tag : W16
  tfirst : Nat
  tcount : Nat
  ordinal : Nat
  dim64 : Bool
  bf : Bool
  q : List Byte
  ring : Nat
  query : Nat
  index : Nat
  pos : Option W32 := none
  gen : Nat := 0
  state : ScanState := .posted
  due : Nat := 0
  cancelled : Bool := false
  deriving DecidableEq, Repr

/-- A bank (R214, R235): offline, the tides of its uncorrectable reads, spare rows used, rows that cannot
be read, whether its headers read corrected, pages whose content is undefined until a START append. -/
structure Bank where
  offline : Bool := false
  errors : List Nat := []
  spares : Nat := 0
  badRows : List Nat := []
  fixedHeaders : Bool := false
  undefinedPages : List Nat := []
  deriving DecidableEq, Repr

/-! ### Encrypted memory -/

/-- What the last write of a line under a key stored (R66; log 7): the key and the plaintext. -/
structure Sealed where
  key : List Byte
  line : BitVec 512
  deriving DecidableEq, Repr

/-! ### Breakwater -/

inductive ContState where
  | empty
  | staging
  | measuring
  | committed
  | failed
  deriving DecidableEq, Repr

/-- A contributor of a group (R242, R243): its state, RUN, staged elements, whether a BWA came while it
was measured, whether it has been measured, σ and norm, its marks, and the staging lines whose reads are
uncorrectable or corrected. -/
structure Contributor where
  state : ContState := .empty
  run : Option W64 := none
  stage : Sparse W32 := []
  undo : Bool := false
  measured : Bool := false
  sigma : W32 := 0
  norm : W32 := 0
  range : Bool := false
  uncorr : Bool := false
  bad : List Nat := []
  fixed : List Nat := []
  deriving DecidableEq, Repr

inductive GroupState where
  | open_
  | applying
  | completing
  deriving DecidableEq, Repr

/-- A breakwater group (R237 to R251): its descriptor and addresses, its contributors, the tide of the
last request it accepted, VIOL, lines left unchanged, corrected reads, and how it came to complete; the core,
the task, the number and the virtual function of the request that opened it, the next line of phase two, and whether
its record has been written while its flag is on its way (R245). -/
structure Group where
  id : Nat
  part : Nat
  stack : Nat
  desc : List W64
  dst : Nat
  compl : Target
  conts : List Contributor
  state : GroupState := .open_
  last : Nat
  viol : Nat := 0
  errlines : Nat := 0
  ncorr : Nat := 0
  applied : Bool := false
  expired : Bool := false
  aborted : Bool := false
  core : Nat := 0
  task : Nat := 0
  request : Nat := 0
  line : Nat := 0
  written : Bool := false
  vf : Nat := 0
  deriving DecidableEq, Repr

/-! ### Timed and untimed messages between cores -/

inductive FlitKind where
  /-- A flag signal (R421, R248): target physical core and flag, the partition of the sender, and the
  release that it carries. -/
  | signal (core flag part : Nat) (rel : Option Cover)
  /-- A barrier arrival (R419): sender and receiver. -/
  | barrier (src dst : Nat)
  /-- A flit of a SEND tile (R430): the tile's number, sender and receiver, the place of the flit among
  those of the tile and their number, and, in the head, the image. -/
  | tile (send src dst index count : Nat) (image : List Byte)
  deriving DecidableEq, Repr

/-- A message on its way (R28, R421, R430): the tide at which it is offered to its next die-edge link
or arrives, the links that it has still to cross with the tc that follow each, and its task. -/
structure Flit where
  id : Nat
  due : Nat
  task : Option Nat := none
  legs : List (Nat × Nat) := []
  kind : FlitKind
  deriving DecidableEq, Repr

/-- A SEND tile at its destination (R430): sender, receiver, image, whether its head has a slot, with
the position and the configuration count of `k15`, the flits still to come, and the flits whose bytes have been passed
on. -/
structure Inbound where
  send : Nat
  src : Nat
  dst : Nat
  image : List Byte
  slot : Option (W32 × Nat) := none
  left : Nat
  passed : Nat := 0
  deriving DecidableEq, Repr

/-- A write that has left its core, or the scheduler of a die, and waits for a bank that scans (R219): its number,
since when it waits, the die, the partition and the task that it belongs to, where it goes, and its bytes or its atomic
operation. -/
structure LateWrite where
  id : Nat
  since : Nat
  die : Nat
  part : Nat
  task : Nat
  target : Target
  bytes : List Byte := []
  op : Option Rmw := none
  deriving DecidableEq, Repr

/-- Records of one core for one home package that wait at a station (R40). -/
structure Gather where
  core : Nat
  home : Nat
  records : List (List Byte)
  ids : List Nat
  deriving DecidableEq, Repr

/-- An arrival at a pending barrier (R419): the core, its set in gang core indices, the tide, and the
cores that the arrival has reached. -/
structure BarSet where
  core : Nat
  lo : Nat
  hi : Nat
  scope : Nat
  order : Nat
  at_ : Nat
  told : List Nat := []
  deriving DecidableEq, Repr

end Sys2Proof.Machine
end

