-- ==== Sys2Proof/Machine/State.lean ====
section
/-!
DEFINITION. The state of the package as plain data, the reasons a step can stop, and the state right
after package reset.
-/

namespace Sys2Proof.Machine

/-- Why the machine stops. -/
inductive Fault where
  /-- Raised by every step once a junction reading of 120 °C or above has removed power (R22): the
  package does nothing more until it is reset. Safe: nothing is claimed of a package without power. -/
  | powerRemoved
  /-- Raised by every step once bring-up has ended in package fatal (R23, phase 6): the package runs
  nothing. Safe: nothing is claimed of such a package. -/
  | packageFatal
  deriving DecidableEq, Repr

/-- Why an instruction has no meaning here. -/
inductive Refusal where
  /-- Raised by `exec` for an instruction that the model does not give a meaning yet. Safe: a
  refusal claims nothing. -/
  | notModelled (mnemonic : String)
  deriving DecidableEq, Repr

/-- The word that a core is issuing: the core, the engine, the queue entry, the queue as it was
before the word was taken from it. -/
structure Cur where
  core : Nat := 0
  eng : Nat := 0
  q : QWord := ⟨0, 0, [], none, 0, false⟩
  old : Queue := {}
  deriving DecidableEq, Repr

/-- What the machine does next (log 4): run a step of the package on a subject, let a command of a core move data,
write a line of untimed data, make a write that has waited for its bank, check a core's issue group at this tide,
issue a queue's head, or perform everything that falls due. -/
inductive Act where
  | event (i : Instr) (subject : Nat)
  | move (core cmd : Nat)
  | line (core : Nat) (a : Arriving)
  | write (id : Nat)
  | group (core : Nat)
  | issue (core eng : Nat)
  | performs
  deriving DecidableEq, Repr

/-- A step of the package that falls due at a tide. -/
structure Due where
  at_ : Nat
  ev : Instr
  subject : Nat
  deriving DecidableEq, Repr

/-- The state of the package. -/
structure State where
  tide : Nat
  boot : Boot
  powered : Bool
  plimit : W16
  watts : Nat
  draw : Nat
  drawn : Nat
  drawnAt : Nat
  celsius : Nat
  skew : Vector W64 4
  phold : Bool
  thold : Bool
  ttrip : Bool
  misal : BitVec 4
  diepres : BitVec 4
  stkpres : BitVec 8
  bremap : Bool
  route : Bool
  iberr : W32
  ibsnd : W32
  kvp : BitVec 7
  rcvaddr : W64
  rcvlen : W32
  rcvcode : Nat
  rcvwait : Bool
  rcvimage : List Byte
  flash : List Byte
  image : List Byte
  resets : Nat
  edgeDown : Vector Bool 4
  edgeErrors : Vector (List Nat) 4
  stationUp : BitVec 16
  portUp : BitVec 8
  bindings : Sparse Byte
  gathers : List Gather
  outgoing : List Outgoing
  etherDone : List (Nat × Bool)
  replies : List Reply
  funcs : Vector Func 257
  queues : Sparse WorkQueue
  parts : Vector Partition 32
  owners : Sparse Byte
  keys : Sparse (List Byte)
  locked : Sparse Sealed
  msix : List (Nat × Nat)
  dies : Vector DieSched 4
  tasks : Sparse Task
  graphs : Sparse Graph
  copies : List CopyJob
  cores : Vector Core 256
  cohort : Memory
  device : Memory
  host : Memory
  poison : List Nat
  corrected : List Nat
  headers : Sparse (BitVec 128)
  banks : Sparse Bank
  msgs : List Msg
  acks : List Ack
  scans : List PageScan
  groups : List Group
  lastStatus : Sparse Byte
  flits : List Flit
  links : List (Nat × Nat × Nat)
  inbound : List Inbound
  late : List LateWrite
  covers : List Cover
  inbox : List (Nat × Bool)
  bars : List BarSet
  agenda : List Due
  inputs : List (Nat × Instr)
  strokes : List (Nat × Stroke)
  now : List Act
  phase : Nat
  subject : Nat
  cur : Cur
  fresh : Nat
  deriving DecidableEq, Repr

/-- The package right after package reset: bring-up is about to run on what the silicon answers
(R23). Values that the manual does not give are those of log 1 and log 2. -/
def State.reset : State where
  tide := 0
  boot := .phase 1
  powered := true
  plimit := 2000
  watts := 0
  draw := 0
  drawn := 0
  drawnAt := 0
  celsius := 0
  skew := Vector.replicate 4 0
  phold := false
  thold := false
  ttrip := false
  misal := 0
  diepres := 0
  stkpres := 0
  bremap := false
  route := false
  iberr := 0
  ibsnd := 0
  kvp := 0
  rcvaddr := 0
  rcvlen := 0
  rcvcode := 0
  rcvwait := false
  rcvimage := []
  flash := Config.flashImage
  image := []
  resets := 0
  edgeDown := Vector.replicate 4 false
  edgeErrors := Vector.replicate 4 []
  stationUp := 0
  portUp := 0
  bindings := []
  gathers := []
  outgoing := []
  etherDone := []
  replies := []
  funcs := Vector.replicate 257 {}
  queues := []
  parts := Vector.replicate 32 {}
  owners := []
  keys := []
  locked := []
  msix := []
  dies := Vector.replicate 4 {}
  tasks := []
  graphs := []
  copies := []
  cores := Vector.replicate 256 {}
  cohort := []
  device := []
  host := []
  poison := []
  corrected := []
  headers := []
  banks := []
  msgs := []
  acks := []
  scans := []
  groups := []
  lastStatus := []
  flits := []
  links := []
  inbound := []
  late := []
  covers := []
  inbox := []
  bars := []
  agenda := []
  inputs := []
  strokes := []
  now := [.event (.packageReset Config.bootEnv) 0]
  phase := 0
  subject := 0
  cur := {}
  fresh := 0

end Sys2Proof.Machine
end

