-- ==== Sys2Proof/Machine/Store.lean ====
section
/-!
DEFINITION. Sparse maps: reading and writing numbered collections in one canonical form. Keys rise
strictly, and no entry equals what an unlisted key reads as.
-/

namespace Sys2Proof

/-- The entry at a key, or `d`. -/
def Sparse.get {α : Type} (d : α) (m : Sparse α) (k : Nat) : α :=
  match m with
  | [] => d
  | (j, v) :: rest => if j = k then v else Sparse.get d rest k

/-- The entry at a key, if one is listed. -/
def Sparse.find {α : Type} (m : Sparse α) (k : Nat) : Option α :=
  match m with
  | [] => none
  | (j, v) :: rest => if j = k then some v else Sparse.find rest k

/-- Values from a key upwards as entries, without those that equal `d`. -/
def Sparse.run {α : Type} [DecidableEq α] (d : α) (k : Nat) : List α → Sparse α
  | [] => []
  | v :: vs => if v = d then Sparse.run d (k + 1) vs else (k, v) :: Sparse.run d (k + 1) vs

/-- Consecutive values written from a key upwards. -/
def Sparse.write {α : Type} [DecidableEq α] (d : α) (m : Sparse α) (k : Nat) (vs : List α) :
    Sparse α :=
  m.filter (fun e => e.1 < k) ++ (Sparse.run d k vs ++ m.filter (fun e => k + vs.length ≤ e.1))

/-- One value written at a key. -/
def Sparse.set {α : Type} [DecidableEq α] (d : α) (m : Sparse α) (k : Nat) (v : α) : Sparse α :=
  m.write d k [v]

/-- A record listed at a key, whatever its value. -/
def Sparse.put {α : Type} (m : Sparse α) (k : Nat) (v : α) : Sparse α :=
  m.filter (fun e => e.1 < k) ++ ((k, v) :: m.filter (fun e => k < e.1))

/-- A key no longer listed. -/
def Sparse.erase {α : Type} (m : Sparse α) (k : Nat) : Sparse α := m.filter (fun e => e.1 != k)

/-- The entries of a range of keys. -/
def Sparse.window {α : Type} (m : Sparse α) (k n : Nat) : Sparse α :=
  m.filter (fun e => k ≤ e.1 && e.1 < k + n)

/-- Consecutive values read from a key upwards, in blocks of 64 so that a long read stays cheap. -/
def Sparse.read {α : Type} (d : α) (m : Sparse α) (k n : Nat) : List α :=
  let es := m.window k n
  (List.range ((n + 63) / 64)).flatMap (fun b =>
    let c := es.window (k + 64 * b) 64
    (List.range (Nat.min 64 (n - 64 * b))).map (fun i => c.get d (k + 64 * b + i)))

/-- Strictly rising keys. -/
def Sparse.rising {α : Type} : Sparse α → Bool
  | [] => true
  | [_] => true
  | (j, _) :: (k, v) :: rest => j < k && Sparse.rising ((k, v) :: rest)

/-- The canonical form: strictly rising keys and no entry equal to the default. -/
def Sparse.wf {α : Type} [DecidableEq α] (d : α) (m : Sparse α) : Bool :=
  m.rising && m.all (fun e => e.2 != d)

/-- What a byte of memory reads as before anything has written it (log 2). -/
def Memory.unwritten : Byte := 0

/-- One byte of memory. -/
def Memory.get (m : Memory) (a : Nat) : Byte := Sparse.get Memory.unwritten m a

/-- Consecutive bytes of memory. -/
def Memory.read (m : Memory) (a n : Nat) : List Byte := Sparse.read Memory.unwritten m a n

/-- Consecutive bytes stored. -/
def Memory.write (m : Memory) (a : Nat) (bs : List Byte) : Memory :=
  Sparse.write Memory.unwritten m a bs

/-- The canonical form of memory. -/
def Memory.wf (m : Memory) : Bool := Sparse.wf Memory.unwritten m

/-- The little-endian number of bytes (R5). -/
def natOfBytes : List Byte → Nat
  | [] => 0
  | b :: bs => b.toNat + 256 * natOfBytes bs

/-- The `n` little-endian bytes of a number (R5). -/
def bytesOfNat : Nat → Nat → List Byte
  | 0, _ => []
  | n + 1, v => BitVec.ofNat 8 v :: bytesOfNat n (v / 256)

/-- A list cut into pieces of `n`. -/
def chunksOf {α : Type} (n : Nat) : Nat → List α → List (List α)
  | 0, _ => []
  | k + 1, xs => xs.take n :: chunksOf n k (xs.drop n)

/-- Little-endian words of `n` bytes each. -/
def wordsOf (n count : Nat) (bs : List Byte) : List Nat := (chunksOf n count bs).map natOfBytes

/-- The 64-bit words of bytes. -/
def words64 (count : Nat) (bs : List Byte) : List W64 :=
  (wordsOf 8 count bs).map (BitVec.ofNat 64)

/-- The bytes of 64-bit words. -/
def bytesOfWords (ws : List W64) : List Byte := ws.flatMap (fun w => bytesOfNat 8 w.toNat)

/-- Bits hi:lo of a number (R9). -/
def bits (x hi lo : Nat) : Nat := x / 2 ^ lo % 2 ^ (hi + 1 - lo)

/-- Bits hi:lo of a word (R9). -/
def wbits (x : W64) (hi lo : Nat) : Nat := bits x.toNat hi lo

/-- Bit i of a word. -/
def wbit (x : W64) (i : Nat) : Bool := x.toNat / 2 ^ i % 2 == 1

/-- A word from a number. -/
def w64 (n : Nat) : W64 := BitVec.ofNat 64 n

/-- A word with bits hi:lo replaced. -/
def setBits (x : W64) (hi lo v : Nat) : W64 :=
  w64 (x.toNat - wbits x hi lo * 2 ^ lo + v % 2 ^ (hi + 1 - lo) * 2 ^ lo)

/-- A number read as a signed one of `w` bits. -/
def sextNat (w : Nat) (v : Nat) : Int :=
  let u := v % 2 ^ w
  if u < 2 ^ (w - 1) then (u : Int) else (u : Int) - (2 ^ w : Nat)

/-- An element placed before the first that it may stand before. -/
def insertBy {α : Type} (le : α → α → Bool) (x : α) : List α → List α
  | [] => [x]
  | y :: ys => if le x y then x :: y :: ys else y :: insertBy le x ys

/-- A list sorted; elements that may stand either way keep their order. -/
def sortBy {α : Type} (le : α → α → Bool) (xs : List α) : List α := xs.foldr (insertBy le) []

/-- Entry i of a vector, or a default. -/
def vget {α : Type} {n : Nat} (d : α) (v : Vector α n) (i : Nat) : α := v[i]?.getD d

/-- A vector with entry i replaced, if it has one. -/
def vset {α : Type} {n : Nat} (v : Vector α n) (i : Nat) (x : α) : Vector α n :=
  v.setIfInBounds i x

end Sys2Proof
end

