-- ==== Sys2Proof/Machine/Flags.lean ====
section
/-!
DEFINITION. The FLAGS register (R282 to R284): where each engine's bits stand, setting them, and the
write-one-to-clear write.
-/

namespace Sys2Proof.Machine

/-- The lowest FLAGS bit of an engine that rounds; the S, T, X and Y engines have none (R282, R283). -/
def flagBase : Nat → Option Nat
  | 1 => some 0
  | 2 => some 5
  | 4 => some 10
  | 5 => some 15
  | _ => none

/-- FLAGS with an engine's bits set: invalid, overflow, underflow, inexact, saturation upwards
(R282). -/
def raiseFlags (fl : BitVec 20) (eng : Nat) (f : Flags) : BitVec 20 :=
  match flagBase eng with
  | some b => fl ||| BitVec.ofNat 20 (f % 32 * 2 ^ b)
  | none => fl

/-- A write to FLAGS: each bit written as 1 is cleared (R282, R321). -/
def clearFlags (fl : BitVec 20) (v : W64) : BitVec 20 := fl &&& ~~~ (v.setWidth 20)

/-- A core with an engine's flag bits set (R283). -/
def Core.raiseFlags (k : Core) (eng : Nat) (f : Flags) : Core :=
  { k with fflags := Machine.raiseFlags k.fflags eng f }

end Sys2Proof.Machine
end

