-- ==== Sys2Proof/Machine/Operands.lean ====
section
/-!
DEFINITION. What each word names: the scalar registers it reads, in the order in which R305 allocates
their ports, the scalar registers and tiles that it writes, the tiles it touches in the order of
their checks (R341), its ring, and whether it is a gate-class word (R129).
-/

namespace Sys2Proof.Machine

/-- The operands of a word. -/
structure Operands where
  reads : List Nat := []
  writes : List Nat := []
  tiles : List Nat := []
  ring : Option Nat := none
  gate : Bool := false
  deriving DecidableEq, Repr

/-- d, a, b words of the S engine (R287). -/
def opsDab (d a b : BitVec 5) : Operands := { reads := [a.toNat, b.toNat], writes := [d.toNat] }
def opsDa (d a : BitVec 5) : Operands := { reads := [a.toNat], writes := [d.toNat] }

/-- A V word with a tile or broadcast b (R288). -/
def opsV (d a : BitVec 4) (b : BitVec 5) (s : BitVec 1) : Operands :=
  if s = 1 then { reads := [b.toNat], tiles := [d.toNat, a.toNat] }
  else { tiles := [d.toNat, a.toNat, b.toNat % 16] }

def opsV2 (d a : BitVec 4) : Operands := { tiles := [d.toNat, a.toNat] }
def opsV3 (d a b : BitVec 4) : Operands := { tiles := [d.toNat, a.toNat, b.toNat] }

/-- A load into a scalar or a tile, a store from one (R291). -/
def opsLd (d b x : BitVec 5) : Operands := { reads := [b.toNat, x.toNat], writes := [d.toNat] }
def opsLdt (d : BitVec 4) (b x : BitVec 5) : Operands :=
  { reads := [b.toNat, x.toNat], tiles := [d.toNat] }
def opsSt (s b x : BitVec 5) : Operands := { reads := [s.toNat, b.toNat, x.toNat] }

/-- A word that only reads registers. -/
def opsRead (rs : List (BitVec 5)) : Operands := { reads := rs.map BitVec.toNat }

/-- The operands of a word; a step of the package has none. -/
def operands : Instr → Operands
  | .add _ d a b | .sub _ d a b | .mul _ d a b | .and _ d a b | .or _ d a b | .xor _ d a b
  | .shl _ d a b | .shr _ d a b | .sar _ d a b => opsDab d a b
  | .mulh _ d a b _ | .div _ d a b _ | .min _ d a b _ | .max _ d a b _ | .cmp _ d a b _
  | .bfx _ d a b _ => opsDab d a b
  | .addi _ d a _ | .andi _ d a _ | .ori _ d a _ | .xori _ d a _ => opsDa d a
  | .shlImm _ d a _ _ | .shrImm _ d a _ _ | .sarImm _ d a _ _ => opsDa d a
  | .clz _ d a | .popc _ d a | .spt _ d a | .spc _ d a _ => opsDa d a
  | .sel _ d a b c => { reads := [a.toNat, b.toNat, c.toNat], writes := [d.toNat] }
  | .li _ d _ => { writes := [d.toNat] }
  | .lsi _ d _ => { reads := [d.toNat], writes := [d.toNat] }
  | .bfi _ d a b => { reads := [d.toNat, a.toNat, b.toNat], writes := [d.toNat] }
  | .loopReg _ j _ => { reads := [24 + j.toNat] }
  | .guard _ r _ _ => opsRead [r]
  | .vadd _ d a b s _ _ _ _ | .vsub _ d a b s _ _ _ _ | .vmul _ d a b s _ _ _ _
  | .vfma _ d a b s _ _ _ _ | .vshr _ d a b s _ _ _ _ | .vcmp _ d a b s _ _ _ _ => opsV d a b s
  | .vmax _ d a b s _ _ _ | .vmin _ d a b s _ _ _ | .vand _ d a b s _ _ _ | .vor _ d a b s _ _ _
  | .vxor _ d a b s _ _ _ | .vshl _ d a b s _ _ _ | .vsel _ d a b s _ _ _
  | .vperm _ d a b s _ _ _ => opsV d a b s
  | .vabs _ d a _ _ _ | .vneg _ d a _ _ _ | .vred _ d a _ _ _ | .vscan _ d a _ _ _
  | .vcvt _ d a _ _ _ => opsV2 d a
  | .vexp2 _ d a _ _ | .vrcp _ d a _ _ | .vrsq _ d a _ _ | .vrnd _ d a _ _ | .vmov _ d a _ _ =>
    opsV2 d a
  | .vbcast _ d a b _ _ => { reads := [b.toNat], tiles := [d.toNat, a.toNat] }
  | .viota _ d b _ | .vmovScalar _ d b _ => { reads := [b.toNat], tiles := [d.toNat] }
  | .vsortk _ d a b _ _ _ _ | .vsegr _ d a b _ _ _ _ => opsV3 d a b
  | .vtmg _ d a b _ _ _ => opsV3 d a b
  | .mwld _ k _ | .mfwd _ _ k _ | .mbwd _ _ k _ => { ring := some k.toNat }
  | .mhad _ k _ d | .mqnt _ k _ d => { tiles := [d.toNat, k.toNat] }
  | .mdrn _ _ k _ _ _ => { tiles := [k.toNat] }
  | .tcfg _ x y | .tldv _ x y => { reads := [y.toNat], tiles := [x.toNat] }
  | .tzero _ x => { tiles := [x.toNat] }
  | .trmov _ x y _ _ | .ttr _ x y => { tiles := [x.toNat, y.toNat] }
  | .trmovRows _ x y z | .tcmov _ x y z => { reads := [z.toNat], tiles := [x.toNat, y.toNat] }
  | .tmkv _ x y => { writes := [x.toNat], tiles := [y.toNat] }
  | .dup _ x y | .cnt _ x y => { reads := [y.toNat], writes := [x.toNat] }
  | .drop _ y | .reuse _ y => opsRead [y]
  | .upd _ x y z => { reads := [x.toNat, y.toNat, z.toNat], writes := [x.toNat] }
  | .updr _ x y z _ => { reads := [x.toNat, y.toNat], writes := [x.toNat], tiles := [z.toNat] }
  | .ld _ d b x _ _ _ | .ldg _ d b x _ _ => opsLd d b x
  | .ldt _ d b x _ _ _ | .ldr _ d b x _ _ | .ldtr _ d b x => opsLdt d b x
  | .gth _ d b l _ => opsLdt d b l
  | .ldv _ d b h _ => opsLd d b h
  | .st _ s b x _ _ | .stg _ s b x _ | .stv _ s b x | .red _ s b x _ => opsSt s b x
  | .stt _ t b x _ _ | .redRow _ t b x _ _ => opsLdt t b x
  | .sct _ t b l _ => opsLdt t b l
  | .kva _ d b k | .kvr _ d b k _ => opsLd d b k
  | .bws _ t g => { reads := [g.toNat], tiles := [t.toNat] }
  | .bwc _ g | .bwa _ g => opsRead [g]
  | .ldaq _ d a _ _ _ _ => opsDa d a
  | .strl _ _ a b _ _ | .fill _ a b _ _ => opsRead [a, b]
  | .atom _ d a _ _ _ _ => { reads := [d.toNat, a.toNat], writes := [d.toNat] }
  | .cas _ d a b _ _ => { reads := [d.toNat, a.toNat, b.toNat], writes := [d.toNat] }
  | .rul _ a _ _ | .wul _ a _ _ | .sigf _ _ a _ _ => opsRead [a]
  | .rlk _ a _ _ | .wlk _ a _ _ | .bar _ a _ _ | .waitf _ _ a _ _ =>
    { reads := [a.toNat], gate := true }
  | .take _ d a _ _ => { reads := [a.toNat], writes := [d.toNat], gate := true }
  | .rres _ d k => { writes := [d.toNat], ring := some k.toNat }
  | .rcon _ d k => { writes := [d.toNat], ring := some k.toNat, gate := true }
  | .rpub _ a k | .rrel _ a k => { reads := [a.toNat], ring := some k.toNat }
  | .spawn _ d a b => opsDab d a b
  | .send _ t _ _ _ _ _ _ _ _ => { tiles := [t.toNat] }
  | .csrr _ d _ => { writes := [d.toNat] }
  | .csrw _ a n =>
    { reads := [a.toNat], tiles := if n.toNat / 16 = 4 then [n.toNat % 16] else [] }
  | .reth _ a | .fmtw _ a | .ecmd _ a | .chl _ a _ | .aqp _ a _ | .kvtl _ a _ _
  | .opts _ a | .ckpt _ a => opsRead [a]
  | .bwo _ a d => { reads := [a.toNat], writes := [d.toNat] }
  | .talign _ a | .talignM _ a => { reads := [a.toNat], gate := true }
  | _ => {}

/-- The distinct registers other than s0 that a word's reads take ports for (R304). -/
def portReads (rs : List Nat) : List Nat :=
  rs.foldl (fun acc r => if r = 0 || acc.contains r then acc else acc ++ [r]) []

/-- The first register of a group's reads that finds both ports of its bank taken (R304, R305); the
reads come in the order of allocation. -/
def portConflict : List Nat → List Nat → Option Nat
  | [], _ => none
  | r :: rest, taken =>
    if r = 0 || taken.contains r then portConflict rest taken
    else if (taken.filter (fun q => q % 4 == r % 4)).length < 2 then
      portConflict rest (taken ++ [r])
    else some r

end Sys2Proof.Machine
end

