-- ==== Sys2Proof/Machine/Ops.lean ====
section
/-!
DEFINITION. The named operations over the state: a core and its registers, the word that is issuing,
what falls due, operations in flight, taking a fault and the frame it leaves (R137 to R140), and the
return from a handler (R143).
-/

namespace Sys2Proof.Machine

/-! ### Cores and tasks -/

/-- A core by its physical id (R14). -/
def State.core (s : State) (c : Nat) : Core := vget {} s.cores c

def State.setCore (s : State) (c : Nat) (k : Core) : State := { s with cores := vset s.cores c k }

def State.modCore (s : State) (c : Nat) (f : Core → Core) : State := s.setCore c (f (s.core c))

/-- Every core of a list, updated. -/
def State.modCores (s : State) (cs : List Nat) (f : Core → Core) : State :=
  cs.foldl (fun s c => s.modCore c f) s

def State.task? (s : State) (t : Nat) : Option Task := s.tasks.find t

def State.setTask (s : State) (t : Nat) (k : Task) : State := { s with tasks := s.tasks.put t k }

def State.modTask (s : State) (t : Nat) (f : Task → Task) : State :=
  match s.task? t with
  | some k => s.setTask t (f k)
  | none => s

/-- The task that a core runs. -/
def State.taskOf (s : State) (c : Nat) : Option Task := (s.core c).task.bind s.task?

/-- The die of a core (R14). -/
def dieOf (c : Nat) : Nat := c / 64

/-- The cohort of a core: its die, row pair and column half (R14). -/
def cohortOf (c : Nat) : Nat := c / 64 * 8 + c / 16 % 4 * 2 + c / 4 % 2

/-- The cohort position of a core: row offset × 4 + column offset (R160). -/
def cohortPos (c : Nat) : Nat := c / 8 % 2 * 4 + c % 4

/-- The core at a position of a cohort (R14). -/
def coreAt (cohort pos : Nat) : Nat :=
  cohort / 8 * 64 + (cohort / 2 % 4 * 2 + pos / 4 % 2) * 8 + cohort % 2 * 4 + pos % 4

/-- The latency between two dies: same, adjacent or diagonal (R12, R30). -/
def byDistance (d e same adjacent diagonal : Nat) : Nat :=
  if d = e then same else if d + e = 3 then diagonal else adjacent

/-- The lag of a freeze from core c to core d (R30, R137). -/
def freezeLag (c d : Nat) : Nat := byDistance (dieOf c) (dieOf d) 8 48 92

/-! ### What happens later -/

/-- A step of the package, due at a tide. -/
def State.due (s : State) (t : Nat) (i : Instr) (subject : Nat) : State :=
  { s with agenda := s.agenda ++ [⟨t, i, subject⟩] }

/-- Steps that satisfy a test are no longer due. -/
def State.cancel (s : State) (f : Due → Bool) : State :=
  { s with agenda := s.agenda.filter (fun d => !f d) }

/-- A free latency (log 3) of at least `least`, and the state with its number used. -/
def State.later (s : State) (least : Nat) : Nat × State :=
  (s.tide + least + Config.latency s.fresh, { s with fresh := s.fresh + 1 })

/-- A fresh number. -/
def State.number (s : State) : Nat × State := (s.fresh, { s with fresh := s.fresh + 1 })

/-! ### Registers -/

/-- A scalar register; s0 reads zero (R303). -/
def Core.reg (k : Core) (r : Nat) : W64 := if r = 0 then 0 else vget 0 k.sreg r

/-- A scalar register written; a write to s0 is discarded (R303). -/
def Core.setReg (k : Core) (r : Nat) (v : W64) : Core :=
  if r = 0 then k else { k with sreg := vset k.sreg r v }

def Core.tile (k : Core) (t : Nat) : Tile := vget {} k.tiles t

def Core.setTile (k : Core) (t : Nat) (x : Tile) : Core := { k with tiles := vset k.tiles t x }

def Core.ring (k : Core) (n : Nat) : Ring := vget {} k.rings n

def Core.setRing (k : Core) (n : Nat) (r : Ring) : Core := { k with rings := vset k.rings n r }

def Core.flag (k : Core) (f : Nat) : W32 := vget 0 k.flags f

def Core.block (k : Core) (b : Nat) : Block := (k.blocks.find b).getD {}

def Core.setBlock (k : Core) (b : Nat) (x : Block) : Core :=
  { k with blocks := k.blocks.set {} b x }

def Core.queue (k : Core) (e : Nat) : Queue := vget {} k.stream.queues e

def Core.setQueue (k : Core) (e : Nat) (q : Queue) : Core :=
  { k with stream := { k.stream with queues := vset k.stream.queues e q } }

/-- The rounding state of an engine (R271, R272). -/
def rmodeIndex (eng : Nat) : Nat := if eng = 1 then 0 else if eng = 2 then 1 else 2

/-- The rounding context of a word of an engine at its issue (R270 to R273); the L engine rounds
RNE with SAT clear. -/
def Core.rounding (k : Core) (eng : Nat) : RoundCtx :=
  if eng = 4 then ⟨0, false, k.sr⟩
  else
    let r := vget (0, false) k.rmodes (rmodeIndex eng)
    ⟨r.1, r.2, k.sr⟩

/-! ### The word that is issuing -/

/-- The core that is issuing. -/
def State.me (s : State) : Core := s.core s.cur.core

def State.modMe (s : State) (f : Core → Core) : State := s.modCore s.cur.core f

/-- A scalar register of the issuing core. -/
def State.reg (s : State) (r : BitVec 5) : W64 := s.me.reg r.toNat

/-- The task of the issuing core, or a record of defaults where it runs none. -/
def State.myTask (s : State) : Task := (s.taskOf s.cur.core).getD { record := [], vf := 0, part := 0 }

/-- The slip horizon and the gate delay of the issuing core's gang (R130). -/
def State.horizon (s : State) (c : Nat) : Nat := ((s.taskOf c).map Task.h).getD 8
def State.gateDelay (s : State) (c : Nat) : Nat := ((s.taskOf c).map Task.d).getD 16

/-- A word of a task record (R56). -/
def Task.word (k : Task) (i : Nat) : W64 := k.record.getD i 0

/-- NP: the task is not pre-emptible (R56). -/
def Task.np (k : Task) : Bool := wbit (k.word 3) 40

/-- Whether the issuing core's kernel is pre-emptible, and whether it stands in an epilogue (R117). -/
def State.preemptible (s : State) : Bool := ((s.taskOf s.cur.core).map (fun k => !k.np)).getD false
def State.inEpilogue (s : State) : Bool := s.preemptible && s.me.epi.active

/-- Whether the issuing core runs a handler. -/
def State.inHandler (s : State) : Bool := s.me.mode == .handler

/-! ### Faults -/

/-- FCAUSE (R138). -/
def fcauseOf (precise own : Bool) (eng code : Nat) : W64 :=
  w64 (2 ^ 63 + (if precise then 2 ^ 62 else 0) + (if own then 2 ^ 61 else 0) + eng % 8 * 2 ^ 58
    + code % 256)

/-- Whether a core's frame says that it faulted itself (R138). -/
def Core.ownFault (k : Core) : Bool := wbit k.fcause 63 && wbit k.fcause 61

/-- An FFR register (R139): the head of the queue, or EMPTY and the fetch point. -/
def Core.ffrOf (k : Core) (e : Nat) : W64 :=
  match (k.queue e).words with
  | q :: _ => w64 (q.addr % 2 ^ 14)
  | [] => w64 (2 ^ 15 + k.stream.pc % 2 ^ 14)

/-! ### Die-edge links (R28, R29) -/

/-- The links of a timed message between dies (R28), with the tc that follow each: a diagonal one
crosses the die beside the sender's (log 12). -/
def dieLegs (d e : Nat) : List (Nat × Nat) :=
  if d = e then [] else if d + e = 3 then [(d * 4 + (d ^^^ 1), 4), ((d ^^^ 1) * 4 + e, 0)]
  else [(d * 4 + e, 0)]

/-- Timed flits that a link takes at a tide. -/
def State.linkUse (s : State) (link t : Nat) : Nat :=
  s.links.foldl (fun m x => if x.1 = link ∧ x.2.1 = t then x.2.2 else m) 0

/-- The first tide at which a link has a timed slot left. -/
def State.linkSlot (s : State) (link t : Nat) : Nat → Nat
  | 0 => t
  | n + 1 => if s.linkUse link t < 2 then t else s.linkSlot link (t + 1) n

/-- A timed slot of a link taken; what lies in the past is forgotten. -/
def State.takeSlot (s : State) (link t : Nat) : State :=
  let n := s.linkUse link t + 1
  { s with links := (s.links.filter (fun x => s.tide ≤ x.2.1 && !(x.1 == link && x.2.1 == t))) ++ [(link, t, n)] }

/-- A freeze, a resume or the opening of a gate told to another die (R28): one timed flit, which takes a slot
on each link that it crosses before the messages that are offered with it, and the next one where two have been
taken (R29; log 12). -/
def State.tell (s : State) (d e : Nat) : State :=
  ((dieLegs d e).foldl (fun (x : State × Nat) leg =>
    (x.1.takeSlot leg.1 (x.1.linkSlot leg.1 x.2 65536), x.2 + 40 + leg.2)) (s, s.tide)).1

/-- The dies of some cores told of a control message of a core. -/
def State.tellDies (s : State) (c : Nat) (cs : List Nat) : State :=
  ((cs.map dieOf).eraseDups.filter (fun d => d != dieOf c)).foldl (fun s d => s.tell (dieOf c) d) s

/-- Whether a stop is only announced: a miss whose plane lies ahead (R135). -/
def Stop.pending (st : Stop) (tide : Nat) : Bool :=
  (st.kind == .slip || st.kind == .missTrap) && tide < st.plane

/-- The fault frame of a core that stops (R138, R139); FCAUSE and FINFO of its own fault stand. R138 gives a core
without one OWN 0 and CODE 0; PRECISE, QUEUE and FINFO are 0 too (DESIGN CHOICE, log 49). -/
def Core.framed (k : Core) : Core :=
  { k with
    ffr := Vector.ofFn (fun e : Fin 8 => k.ffrOf e)
    fcause := if k.ownFault then k.fcause else fcauseOf false false 0 0
    finfo := if k.ownFault then k.finfo else 0 }

/-- Whether a stop of a kind is for a walk. -/
def StopKind.walks : StopKind → Bool
  | .walk _ => true
  | _ => false

/-- Whether a stop of a kind leaves a frame. -/
def StopKind.frames (x : StopKind) : Bool := x == .fault || x == .missTrap

/-- Starts or joins a stop of a gang as a fault freeze does (R137): the plane is F0 + H, and the freeze
reaches every other core after its lag. A fault governs a miss that is announced (R147), a stop for a walk takes on
its operands (R177); a fault that meets a stop for a walk turns it into a fault freeze (R177); a core that faults
within its freeze lag joins the stop. -/
def State.freeze (s : State) (c : Nat) (kind : StopKind) : State :=
  match s.taskOf c, (s.core c).task with
  | some k, some t =>
    let others := k.cores.filter (fun d => d != c)
    let last := others.foldl (fun m d => Nat.max m (s.tide + freezeLag c d)) s.tide
    let fresh : Stop :=
      { kind := kind, f := s.tide, plane := s.tide + k.h, allFrozen := last, core := c,
        since := s.tide }
    let start (s : State) (missing : List Missing) : State :=
      others.foldl (fun s d => s.due (s.tide + freezeLag c d) (.freezeArrival d) 0)
        ((s.setTask t { k with stop := some { fresh with missing := missing } }).tellDies c others)
    match k.stop with
    | none => start s []
    | some st =>
      if st.pending s.tide then
        let join := if kind.walks then st.missing else []
        start (s.cancel (fun d => d.ev == .slipPlane t || d.ev == .slipResume t)) join
      else if kind.frames && !st.kind.frames && st.kind != .preempt then
        (s.setTask t { k with stop := some { st with kind := kind, resume := none } }).cancel
            (fun d => d.ev == .slipResume t) |> fun s =>
          s.modCores (k.cores.filter (fun d => (s.core d).mode == .frozen)) Core.framed
      else s
  | _, _ => s

/-- Ends the task of a core with FAILED_FAULT and a cause (R142, R131, R113 to R115); the first verdict
stays. The gang stops as a fault freeze stops it, and the step `gangEnd` comes once it has stopped. -/
def State.fail (s : State) (c cause : Nat) (detail : W32) : State :=
  match s.taskOf c, (s.core c).task with
  | some k, some t =>
    if k.verdict.isSome || k.state == .stopping then s
    else
      let s := s.setTask t { k with
        verdict := some ⟨0x03, BitVec.ofNat 8 cause, detail⟩, state := .ending }
      let s := (s.modCore c (fun x => { x with stopAt := some (x.stopAt.getD (s.tide + 1)) })).freeze c
        .fault
      match s.taskOf c with
      | some k =>
        match k.stop with
        | some st =>
          (s.setTask t { k with stop := some { st with allFrozen := Nat.max st.allFrozen s.tide } }).due
            (Nat.max (s.tide + 1) (Nat.max st.plane (st.allFrozen + 1))) (.gangEnd t) 0
        | none => s.due (s.tide + 1) (.gangEnd t) 0
      | none => s
  | _, _ => s

/-- A fault of a core (R137, R138): a fault in a handler ends the task with its own cause (R142);
otherwise the first fault of the stop is recorded in FCAUSE and FINFO with OWN set, the core issues
nothing from tide `stop` on, and the gang freezes. A core that a fault's freeze has reached records no cause of
its own (R137). -/
def State.raise (s : State) (c eng : Nat) (precise : Bool) (code : Nat) (info : W64) (stop : Nat) :
    State :=
  let k := s.core c
  if k.mode == .handler then
    (s.setCore c { k with stopAt := some stop }).fail c code (BitVec.ofNat 32 k.vid)
  else if k.ownFault || (k.mode == .frozen && ((s.taskOf c).bind Task.stop).any (fun st => st.kind.frames)) then s
  else
    (s.setCore c { k with
        fcause := fcauseOf precise true eng code
        finfo := info
        stopAt := some (match k.stopAt with | some x => Nat.min x stop | none => stop) }).freeze c .fault

/-- A precise fault of the word that is issuing: the word has not issued and stands at its queue's
head again; the other queues of the core stop after this tc (R137). -/
def State.trap (s : State) (code : Nat) (info : W64) : State :=
  (s.modMe (fun k => k.setQueue s.cur.eng s.cur.old)).raise s.cur.core s.cur.eng true code info
    (s.tide + 1)

/-- FINFO of 0x17 for the word that is issuing (R140). -/
def State.trapShape (s : State) : State := s.trap 0x17 (w64 (s.cur.q.addr % 2 ^ 14))

/-- A privilege fault of the word that is issuing; no rule gives its FINFO a layout, so it is 0
(log 9). -/
def State.trapPrivilege (s : State) : State := s.trap 0x03 0

/-- FINFO of a schedule miss (R140): kind, ring or tile index, missed tide − TBASE, which is 0 where the tide lies
before TBASE (DESIGN CHOICE, log 62). -/
def missInfo (kind index tide tbase : Nat) : W64 :=
  w64 (kind * 2 ^ 61 + index % 16 * 2 ^ 32 + (tide - tbase) % 2 ^ 32)

/-- FINFO of a ring misuse (R152). -/
def ringInfo (ring op : Nat) : W64 := w64 (op * 16 + ring)

/-- FINFO of a protection fault (R152). -/
def protInfo (access page addr : Nat) : W64 := w64 (access * 2 ^ 60 + page * 2 ^ 57 + addr % 2 ^ 57)

/-- FINFO of a translation fault (R152). -/
def transInfo (level reason va : Nat) : W64 := w64 (level * 2 ^ 60 + reason * 2 ^ 57 + va % 2 ^ 57)

/-! ### Operations in flight -/

/-- The exposed operations of a core in flight (R128): one for each word, captured ones included. -/
def Core.exposedCount (k : Core) : Nat :=
  (((k.inflight ++ k.captured).filter Perform.exposed).map Perform.ord).eraseDups.length

/-- An operation added to those in flight: it performs `off` tc after this tide, for the word that is
issuing. -/
def State.post (s : State) (off : Nat) (op : POp) (banks : List Nat := []) : State :=
  s.modMe (fun k => { k with
    inflight := k.inflight ++ [
      { at_ := s.tide + off, eng := s.cur.eng, ord := k.ord, op := op, banks := banks
        handler := s.inHandler }] })

/-- The snapshot overflow of R128: a word that would be exposed operation 513 does not issue. -/
def State.exposing (s : State) (f : State → State) : State :=
  if 512 ≤ s.me.exposedCount then s.trap 0x06 (missInfo 5 0 s.tide s.me.tbase) else f s

/-- A destination in s24 to s31 traps with 0x17 at issue (R303). -/
def State.writing (s : State) (d : BitVec 5) (f : State → State) : State :=
  if 24 ≤ d.toNat then s.trapShape else f s

/-- A word whose one effect is a scalar result at an offset (R309, R310). -/
def State.scalar (s : State) (d : BitVec 5) (off : Nat) (v : W64) : State :=
  s.writing d (fun s => s.exposing (fun s => s.post off (.reg d.toNat v)))

/-! ### Pending destinations -/

/-- A destination marked pending by the word that is issuing (R383). -/
def State.markPending (s : State) (d : PendDest) (fixed : Option Nat := none) : State :=
  s.modMe (fun k => { k with
    pend := k.pend.filter (fun p => p.dest != d) ++ [⟨d, s.tide, fixed⟩] })

def Core.landed (k : Core) (d : PendDest) : Core :=
  { k with pend := k.pend.filter (fun p => p.dest != d) }

def Core.isPending (k : Core) (d : PendDest) : Bool := k.pend.any (fun p => p.dest == d)

/-! ### Leaving a stop -/

/-- A stopped core moved on by W (R135, R143): TBASE and SLIP grow by W, captured operations will
perform at p + W, and with them move the tides that its queues count from, reclaim tides (R187) and
the ends of plane occupancies that lie past the plane or are those of captured operations (R156, R371). -/
def Core.shift (k : Core) (plane w : Nat) : Core :=
  let moved (o : Occupancy) (t : Nat) : Nat :=
    if plane ≤ t || k.captured.any (fun p => p.ord == o.ord && p.at_ ≤ t) then t + w else t
  let moveQ (q : Queue) : Queue :=
    { q with nxt := q.nxt + w, qentry := q.qentry.map (fun e => (e.1, e.2 + w)) }
  { k with
    tbase := k.tbase + w
    slip := k.slip + w
    stream := { k.stream with queues := k.stream.queues.map moveQ }
    inflight := k.inflight ++ k.captured.map (fun p => { p with at_ := p.at_ + w })
    captured := []
    pend := k.pend.map (fun p => { p with marked := p.marked + w, fixed := p.fixed.map (· + w) })
    blocks := k.blocks.map (fun e =>
      (e.1, if e.2.state == .cooling then { e.2 with recl := e.2.recl + w } else e.2))
    occ := k.occ.map (fun o => { o with first := moved o o.first, last := moved o o.last })
    stopAt := none }

/-- The exposed operations of a core that perform at the plane or later are captured (R135 step 2). -/
def Core.capture (k : Core) (plane : Nat) : Core :=
  { k with
    inflight := k.inflight.filter (fun p => !(p.exposed && plane ≤ p.at_))
    captured := k.captured ++ k.inflight.filter (fun p => p.exposed && plane ≤ p.at_) }

end Sys2Proof.Machine
end

