-- ==== Sys2Proof/Machine/Address.lean ====
section
/-!
DEFINITION. Addresses (spec/07_memory.md): generic pointers and their checks, a partition's device
memory, page tables and the translation buffer, and the KV region of device memory (R214 to R218).
-/

namespace Sys2Proof.Machine

/-! ### Generic pointers -/

/-- What a generic pointer names (R148); `bad` fails check 1 or 2 of R149. -/
inductive Space where
  | global (va : Nat)
  | priv (off : Nat)
  | scratch (core off : Nat)
  | cohort (cohort off : Nat)
  | value (core tag index : Nat)
  | bad
  deriving DecidableEq, Repr

/-- The window and fields of a pointer (R148). -/
def spaceOf (p : W64) : Space :=
  match wbits p 63 60 with
  | 0 => if wbits p 59 57 = 0 then .global (wbits p 56 0) else .bad
  | 8 => if wbits p 59 20 = 0 then .priv (wbits p 19 0) else .bad
  | 9 =>
    if wbits p 59 48 = 0 && wbits p 39 22 == 0 then .scratch (wbits p 47 40) (wbits p 21 0) else .bad
  | 10 =>
    if wbits p 59 45 = 0 && wbits p 39 23 == 0 then .cohort (wbits p 44 40) (wbits p 22 0) else .bad
  | 11 =>
    if wbits p 59 48 = 0 && wbits p 39 32 == 0 then
      .value (wbits p 47 40) (wbits p 31 16) (wbits p 15 0)
    else .bad
  | _ => .bad

/-- The base and the size in bytes of the private area (R158). -/
def Core.privBase (k : Core) : Nat := wbits k.parea 9 0 * 4096
def Core.privSize (k : Core) : Nat := wbits k.parea 24 16 * 4096

/-- The class that SPT returns (R150). -/
def spaceClass (k : Core) (p : W64) : Nat :=
  match spaceOf p with
  | .global _ => 0
  | .priv _ => 1
  | .scratch c _ => if c = k.vid then 2 else 3
  | .cohort c _ => if c = cohortOf k.vid then 4 else 5
  | .value c _ _ => if c = k.vid then 6 else 7
  | .bad => 15

/-- A scratchpad pointer of a core (R148). -/
def scratchPtr (vid off : Nat) : W64 := w64 (9 * 2 ^ 60 + vid * 2 ^ 40 + off)

/-- The result of SPC on anything else (R313). -/
def badPointer : W64 := 0xF000000000000000

/-- `SPC.sp` (R313, R151). -/
def toScratchForm (k : Core) (p : W64) : W64 :=
  match spaceOf p with
  | .priv o => if o < k.privSize then scratchPtr k.vid (k.privBase + o) else badPointer
  | .scratch c _ => if c = k.vid then p else badPointer
  | _ => badPointer

/-- `SPC.pv` (R313, R151). -/
def toPrivateForm (k : Core) (p : W64) : W64 :=
  match spaceOf p with
  | .priv o => if o < k.privSize then p else badPointer
  | .scratch c o =>
    if c = k.vid && k.privBase ≤ o && o < k.privBase + k.privSize then
      w64 (8 * 2 ^ 60 + (o - k.privBase))
    else badPointer
  | _ => badPointer

/-! ### Checks of an access -/

/-- A check that passes with a result, or fails with a fault's cause and FINFO. -/
abbrev Checked (α : Type) := Except (Nat × W64) α

/-- Alignment (R154): a size of at most 8 B to itself, a larger one in lines of 64 B. -/
def aligned (addr size : Nat) : Bool :=
  if size ≤ 8 then addr % size == 0 else addr % 64 == 0 && size % 64 == 0

/-- The windows that a word accepts (R464): all, the two windows of a core's own storage, or those
and the global window. -/
inductive Windows where
  | all
  | own
  | ownOrGlobal
  deriving DecidableEq, Repr

/-- What a dereferenced pointer names after checks 1 to 5 of R149, in the core's own storage. -/
inductive Deref where
  | global (va : Nat)
  | scratch (off : Nat)
  | cohort (off : Nat)
  | value (tag index : Nat)
  deriving DecidableEq, Repr

/-- Checks 1 to 5 of R149 with the windows of R464, for an access of `size` bytes aligned to
`align`. -/
def deref (k : Core) (p : W64) (ws : Windows) (ok : Nat → Bool) : Checked Deref :=
  match spaceOf p with
  | .bad => .error (0x0D, p)
  | .global va =>
    if ws == .own then .error (0x0D, p)
    else if ok va then .ok (.global va) else .error (0x16, p)
  | .priv o =>
    if k.privSize ≤ o then .error (0x0F, protInfo 5 7 o)
    else if ok o then .ok (.scratch (k.privBase + o)) else .error (0x16, p)
  | .scratch c o =>
    if c ≠ k.vid then .error (0x0C, p)
    else if ok o then .ok (.scratch o) else .error (0x16, p)
  | .cohort c o =>
    if ws ≠ .all then .error (0x0D, p)
    else if c ≠ cohortOf k.vid then .error (0x0C, p)
    else if ok o then .ok (.cohort o) else .error (0x16, p)
  | .value c tag i =>
    if ws ≠ .all then .error (0x0D, p)
    else if c ≠ k.vid then .error (0x0C, p)
    else .ok (.value tag i)

/-- Scratchpad banks of a run of bytes: one use for each 64-byte line (R153, R155). -/
def banksOf (off len : Nat) : List Nat :=
  (List.range ((off % 64 + len + 63) / 64)).map (fun i => (off / 64 + i) % 32)

/-! ### Device memory of a partition -/

/-- The valid device ranges of a partition in register order: first DPA, bytes, RA (R61). -/
def Partition.ranges (p : Partition) : List (Nat × Nat × Bool) :=
  p.rng.toList.filterMap (fun r =>
    if wbit r 0 then some (wbits r 63 46 * 2 ^ 21, wbits r 45 28 * 2 ^ 21, wbit r 1) else none)

/-- The range that a packed offset falls in: its DPA, the bytes left in the range, RA (R61). -/
def packedAt : List (Nat × Nat × Bool) → Nat → Option (Nat × Nat × Bool)
  | [], _ => none
  | (base, len, ra) :: rest, off =>
    if off < len then some (base + off, len - off, ra) else packedAt rest (off - len)

def State.part (s : State) (p : Nat) : Partition := vget {} s.parts p

def State.setPart (s : State) (p : Nat) (k : Partition) : State :=
  { s with parts := vset s.parts p k }

def State.modPart (s : State) (p : Nat) (f : Partition → Partition) : State :=
  s.setPart p (f (s.part p))

/-- Whether the die whose stacks serve a DPA is present (R25): an absent die contributes no memory. A range may
reach past the memory that its die has (R2, R61): no rule says what lies there, and the model lets it hold bytes
(log 48). What an access to a range on an absent die does is open too: BAR2 reads zero and drops and counts a write,
and a leaf there is refused (DESIGN CHOICE, log 57). -/
def State.served (s : State) (dpa : Nat) : Bool := s.diepres.getLsbD (dpa / 2 ^ 37)

/-- The DPA of a partition device offset. -/
def State.dpaOf (s : State) (p off : Nat) : Option Nat :=
  ((packedAt (s.part p).ranges off).map Prod.fst).filter s.served

/-- Whether a DPA lies in one of a partition's ranges. -/
def Partition.owns (p : Partition) (dpa len : Nat) : Bool :=
  p.ranges.any (fun r => r.1 ≤ dpa && dpa + len ≤ r.1 + r.2.1)

/-- Bytes of device memory at a partition device offset; bytes outside the ranges read zero (R61). -/
def State.readDevice (s : State) (p off len : Nat) : List Byte :=
  (List.range ((len + 63) / 64)).flatMap (fun i =>
    let n := Nat.min 64 (len - 64 * i)
    match s.dpaOf p (off + 64 * i) with
    | some a => s.device.read a n
    | none => List.replicate n 0)

/-- Bytes stored at a partition device offset; bytes outside the ranges are dropped. -/
def State.writeDevice (s : State) (p off : Nat) : List Byte → State
  | bs =>
    (List.range ((bs.length + 63) / 64)).foldl (fun s i =>
      match s.dpaOf p (off + 64 * i) with
      | some a => { s with device := s.device.write a ((bs.drop (64 * i)).take 64) }
      | none => s) s

/-! ### KV region (R214 to R218) -/

/-- Bytes of one region unit: 32 KiB pages of 24,576 banks. -/
def regionUnit : Nat := 768 * 2 ^ 20

/-- The first offset of a die's KV region (R217). -/
def State.kvStart (s : State) : Nat := (127 - s.kvp.toNat) * regionUnit

/-- The end of a die's device memory (R217). -/
def dieBytes : Nat := 127 * regionUnit

/-- The page id of the bank page that holds a DPA of the KV region (R215, R217). -/
def State.pageOf (s : State) (dpa : Nat) : Option Nat :=
  let d := dpa / 2 ^ 37
  let o := dpa % 2 ^ 37
  if o < s.kvStart || dieBytes ≤ o then none
  else
    let k := (o - s.kvStart) / 2 ^ 15
    let bank := k % 16
    let stack := 2 * d + k / 12288 % 2
    let page := (127 - s.kvp.toNat) + k / 24576
    some (stack * 2 ^ 21 + k / 192 % 64 * 2 ^ 15 + k / 16 % 12 * 2 ^ 11 + bank * 2 ^ 7 + page)

/-- The DPA of a bank page of the KV region, if its id names one (R217, R398). -/
def State.dpaOfPage (s : State) (id : Nat) : Option Nat :=
  let stack := id / 2 ^ 21 % 8
  let ch := id / 2 ^ 15 % 64
  let die := id / 2 ^ 11 % 16
  let bank := id / 2 ^ 7 % 16
  let page := id % 128
  let u := 127 - s.kvp.toNat
  if 12 ≤ die || page = 127 || page < u then none
  else
    let k := ((((page - u) * 2 + stack % 2) * 64 + ch) * 12 + die) * 16 + bank
    some (stack / 2 * 2 ^ 37 + s.kvStart + k * 2 ^ 15)

/-- The stack that serves a DPA (R217). -/
def State.stackOf (s : State) (dpa : Nat) : Nat :=
  let d := dpa / 2 ^ 37
  let o := dpa % 2 ^ 37
  if o < s.kvStart then 2 * d + o / 2 ^ 12 % 2 else 2 * d + (o - s.kvStart) / 2 ^ 15 / 12288 % 2

/-- The bank, as a page id without its page, that holds a DPA (R217). -/
def State.bankOf (s : State) (dpa : Nat) : Nat :=
  match s.pageOf dpa with
  | some id => id / 128
  | none =>
    let o := dpa % 2 ^ 37
    s.stackOf dpa * 2 ^ 14 + o / 2 ^ 6 % 64 * 2 ^ 8 + o / 2 ^ 22 % 12 * 2 ^ 4 + o / 2 ^ 13 % 16

/-! ### Page tables (R167 to R170) -/

/-- A valid leaf: page address and size, the fields of R169, and the partition whose tables gave it. -/
structure Leaf where
  va : Nat
  size : Nat
  tgt : Nat
  kind : PageKind
  key : Nat
  pod : Nat
  frame : Nat
  part : Nat
  deriving DecidableEq, Repr

/-- The station of a die for another package of the pod, if one is up (R36, R38). -/
def State.station (s : State) (die pod : Nat) : Option Nat :=
  ([0, 1, 2, 3].map (fun k => 4 * die + (pod + k) % 4)).find? (fun n => s.stationUp.getLsbD n)

/-- Whether an access may use a leaf's target (R170, R218), for traffic from a die. -/
def State.targetOk (s : State) (die : Nat) (a : Access) (tgt pod : Nat) (kind : PageKind) : Bool :=
  (tgt != 3 || a == .command || a == .commandStore) &&
  (tgt != 1 || (s.station die pod).isSome) &&
  (tgt == 0 || kind != .kv) &&
  (tgt != 2 || a != .reduce) &&
  (tgt == 0 || a != .apply)

/-- The page kind of a leaf entry. -/
def kindOf (e : W64) : PageKind :=
  match wbits e 60 59 with
  | 0 => .owned (wbit e 58)
  | 1 => .shared
  | _ => .kv

/-- Whether a partition may use a key slot (R66). -/
def State.keyOk (s : State) (p key : Nat) : Bool :=
  key = 0 || (Sparse.get 0 s.owners key).toNat == 128 + p

/-- Whether a frame lies in a range of a partition with RA set (R61). -/
def State.inRa (s : State) (p dpa : Nat) : Bool :=
  (s.part p).ranges.any (fun r => r.2.2 && r.1 ≤ dpa && dpa < r.1 + r.2.1)

/-- The checks of a leaf (R169, R170, R66, R218) in the order of their reasons: the leaf, or the
reason. -/
def State.leaf (s : State) (p die : Nat) (a : Access) (level va : Nat) (e : W64) : Except Nat Leaf :=
  let size := if level = 4 then 2 ^ 16 else 2 ^ 21
  let tgt := wbits e 62 61
  let kind := kindOf e
  let key := wbits e 56 46
  let pod := wbits e 45 36
  let pfn := wbits e 35 0
  let here := packedAt (s.part p).ranges (pfn * 2 ^ 16)
  if !wbit e 63 then .error 0
  else if (level = 4 && wbit e 57) || wbits e 60 59 == 3 || (wbit e 58 && wbits e 60 59 != 0)
      || (tgt != 1 && pod != 0) || (level != 4 && pfn % 32 != 0) then .error 1
  else if !s.keyOk p key || (wbits e 60 59 != 0 && key != 0) || (tgt == 1 && key != 0)
      || (tgt == 0 && key != 0 && (here.map (fun h => h.2.2)).getD false) then .error 2
  else if tgt == 0 && !(here.map (fun h => s.served h.1)).getD false then .error 3
  else
    let frame := if tgt = 0 then (here.map Prod.fst).getD 0 else pfn * 2 ^ 16
    let inKv := (s.pageOf frame).isSome
    if !s.targetOk die a tgt pod kind || (tgt == 0 && (kind == .kv) != inKv) then .error 4
    else .ok ⟨va / size * size, size, tgt, kind, key, pod, frame, p⟩

/-- A bank, by its page id without the page. -/
def State.bank (s : State) (b : Nat) : Bank := (s.banks.find b).getD {}

/-- Whether a read of a line is uncorrectable (R235). -/
def State.badLine (s : State) (line : Nat) : Bool :=
  s.poison.contains line || (s.bank (s.bankOf (64 * line))).offline

/-- What ends a walk: a translation fault with its level and reason, or an entry in a line that cannot be read, at its
DPA (R235; log 55). -/
inductive WalkStop where
  | fault (level reason : Nat)
  | unread (dpa : Nat)
  deriving DecidableEq, Repr

/-- The cause of a walk that has ended without a leaf, and its FINFO for an address and a queue. -/
def WalkStop.cause : WalkStop → Nat
  | .fault _ _ => 0x0E
  | .unread _ => 0x19
def WalkStop.info (w : WalkStop) (queue va : Nat) : W64 :=
  match w with
  | .fault level reason => transInfo level reason va
  | .unread _ => w64 (queue * 2 ^ 60 + va % 2 ^ 57 / 64 * 64)

/-- A table walk from a level (R167, R168): the leaf, or what has ended it. -/
def State.walkFrom (s : State) (p die : Nat) (a : Access) (va : Nat) :
    Nat → Nat → Nat → Except WalkStop Leaf
  | 0, level, _ => .error (.fault level 0)
  | fuel + 1, level, table =>
    let index := if level = 4 then va / 2 ^ 16 % 32 else va / 2 ^ (48 - 9 * level) % 512
    match s.dpaOf p (table + 8 * index) with
    | none => .error (.fault level 3)
    | some addr =>
      let e := w64 (natOfBytes (s.device.read addr 8))
      if s.badLine (addr / 64) then .error (.unread addr)
      else if level = 4 || (level = 3 && wbit e 57) then
        match s.leaf p die a level va e with
        | .ok l => .ok l
        | .error r => .error (.fault level r)
      else if !wbit e 63 then .error (.fault level 0)
      else if wbits e 62 57 != 0 || wbits e 56 36 != 0 then .error (.fault level 1)
      else if level < 3 && wbits e 35 0 % 16 != 0 then .error (.fault level 1)
      else s.walkFrom p die a va fuel (level + 1) (wbits e 35 0 * 256)

/-- A whole walk (R167): the root is at partition device offset 0. -/
def State.walk (s : State) (p die : Nat) (a : Access) (va : Nat) : Except WalkStop Leaf :=
  s.walkFrom p die a va 5 0 0

/-! ### Page kinds (R171) -/

/-- The page code of R152 for a page kind. -/
def pageCode : PageKind → Nat
  | .owned false => 0
  | .shared => 1
  | .kv => 2
  | .owned true => 3

/-- Whether a page kind admits an access (R171). -/
def PageKind.admits : PageKind → Access → Bool
  | _, .load => true
  | _, .command => true
  | .owned true, .store => true
  | .owned true, .commandStore => true
  | .owned true, .atomic => true
  | .shared, .reduce => true
  | .shared, .apply => true
  | .kv, .append => true
  | _, _ => false

/-- The access code of R152 of a refused write. -/
def accessCode : Access → Nat
  | .atomic => 1
  | .reduce => 2
  | .apply => 2
  | .append => 3
  | _ => 0

/-! ### Translation at issue (R172, R173) -/

/-- The buffer entry that covers an address and serves new issues (R172, R175). -/
def Core.lookup (k : Core) (va : Nat) : Option TlbEntry :=
  k.tlb.find? (fun e => e.va ≤ va && va < e.va + e.size && !e.dying)

/-- The outcome of translating one address at issue. -/
inductive Trans where
  | hit (e : TlbEntry)
  | miss
  | fault (code : Nat) (info : W64)
  deriving DecidableEq, Repr

/-- Translation at issue against the buffer: the key slot's owner and the RA of the frame's range, which the host may
have changed (R66, R61), the target's use (R170) and the page kind (R171). -/
def State.translate (s : State) (c va : Nat) (a : Access) : Trans :=
  match (s.core c).lookup va with
  | none => .miss
  | some e =>
    if !s.keyOk (s.core c).part e.key || (e.tgt == 0 && e.key != 0 && s.inRa (s.core c).part e.frame) then
      .fault 0x0E (transInfo 7 2 va)
    else if !s.targetOk (dieOf c) a e.tgt e.pod e.kind then .fault 0x0E (transInfo 7 4 va)
    else if !e.kind.admits a then .fault 0x0F (protInfo (accessCode a) (pageCode e.kind) va)
    else .hit e

/-- The target of an address under an entry (R169). -/
def TlbEntry.target (e : TlbEntry) (va : Nat) : Target :=
  let off := e.frame + (va - e.va)
  match e.tgt with
  | 0 => if e.key = 0 then .device off else .cipher off e.key
  | 1 => .pod e.part e.pod off
  | 2 => .host off
  | _ => .transport (e.frame / 2 ^ 40) (e.frame % 2 ^ 40 + (va - e.va))

/-- The translation of an address that a task's take made and holds (R100). -/
def Task.held (k : Task) (va : Nat) : Option TlbEntry :=
  k.pages.find? (fun e => e.va ≤ va && va < e.va + e.size)

/-- The in-flight counts of entries raised or lowered (R174). -/
def Core.holdEntries (k : Core) (ids : List Nat) : Core :=
  { k with tlb := k.tlb.map (fun e => { e with count := e.count + (ids.filter (· == e.id)).length }) }
def Core.dropEntries (k : Core) (ids : List Nat) : Core :=
  { k with tlb := k.tlb.map (fun e => { e with count := e.count - (ids.filter (· == e.id)).length }) }

/-- Room for an entry (R174): a full buffer drops its first entry with a count of zero, a dying one included. -/
def makeRoom : List TlbEntry → List TlbEntry
  | [] => []
  | e :: rest => if e.count = 0 then rest else e :: makeRoom rest

/-- A leaf put into a core's buffer, under a fresh number. -/
def State.insertEntry (s : State) (c : Nat) (l : Leaf) : State :=
  let (n, s) := s.number
  s.modCore c (fun k =>
    let old := if 512 ≤ k.tlb.length then makeRoom k.tlb else k.tlb
    { k with tlb := old ++
        [⟨n, l.va, l.size, l.tgt, l.kind, l.key, l.pod, l.frame, 0, false, l.part⟩] })

/-- The words that a partial access of a core's own scratchpad may not touch: blocks of the value
heap (R189). -/
def Core.heapBase (k : Core) : Nat := wbits k.vheap 9 0 * 4096
def Core.heapBlocks (k : Core) : Nat := wbits k.vheap 26 16

def Core.touchesHeap (k : Core) (off len : Nat) : Bool :=
  off < k.heapBase + k.heapBlocks * 4096 && k.heapBase < off + len && k.heapBlocks != 0

end Sys2Proof.Machine
end

