-- ==== Sys2Proof/Machine/Events.lean ====
section
/-!
DEFINITION. What the package tells the host: event records (R73), MSI-X messages (R47, R60), and the
configuration-error event (R465).
-/

namespace Sys2Proof.Machine

def State.func (s : State) (f : Nat) : Func := vget {} s.funcs f

def State.setFunc (s : State) (f : Nat) (x : Func) : State := { s with funcs := vset s.funcs f x }

def State.modFunc (s : State) (f : Nat) (g : Func → Func) : State := s.setFunc f (g (s.func f))

/-- Bytes written to host memory. -/
def State.writeHost (s : State) (addr : Nat) (bs : List Byte) : State :=
  { s with host := s.host.write addr bs }

/-- Whether a function's event ring takes a record (R73): it is enabled and not full, and the function
is in no reset (R64). -/
def Func.eventRoom (f : Func) : Bool :=
  f.eqen && !f.flr && (f.eqtail - f.eqhead).toNat != 2 ^ f.eqlog

/-- A counter that saturates at 2^32 − 1. -/
def saturate (x : W32) : W32 := if x = BitVec.allOnes 32 then x else x + 1

/-- The bytes of an event record (R73). -/
def eventRecord (ty core : Nat) (seq : W32) (addr info : W64) : List Byte :=
  bytesOfWords [w64 (ty * 2 ^ 56 + core % 256 * 2 ^ 48 + seq.toNat), addr, info, 0]

/-- An event record placed in a function's ring, or dropped and counted (R73). -/
def State.event (s : State) (fn ty core : Nat) (addr info : W64) : State :=
  let f := s.func fn
  if f.eventRoom then
    (s.writeHost (f.eqbase.toNat + 32 * (f.eqtail.toNat % 2 ^ f.eqlog))
      (eventRecord ty core f.seq addr info)).setFunc fn
      { f with eqtail := f.eqtail + 1, seq := f.seq + 1 }
  else if f.flr then s
  else s.setFunc fn { f with eqovf := saturate f.eqovf }

/-- An MSI-X message (R47). -/
def State.interrupt (s : State) (fn vec : Nat) : State := { s with msix := s.msix ++ [(fn, vec)] }

/-- The configuration-error event for a refused write at a BAR0 offset (R465). -/
def State.configError (s : State) (off : Nat) : State :=
  (s.event 0 0x09 0 (w64 off) 0).interrupt 0 0

/-- An event that the harbour die tells to PF0's host, with its MSI-X message; what no rule says of the
record is free (R22, R34, R38, R41; log 15). -/
def State.harbourEvent (s : State) (ty : Nat) : State :=
  let n := s.fresh
  ({ s with fresh := n + 2 }.event 0 ty 0 (Config.eventDetail n) (Config.eventDetail (n + 1))).interrupt 0
    (Config.eventVector ty)

/-- The functions bound to a partition (R61). -/
def Partition.functions (p : Partition) : List Nat :=
  ((List.range 256).filter (fun i => p.pvf.getLsbD i)).map (· + 1)

/-- An event placed in the ring of every function of a partition. -/
def State.eventAll (s : State) (p ty core : Nat) (addr info : W64) : State :=
  (vget {} s.parts p).functions.foldl (fun s f => s.event f ty core addr info) s

end Sys2Proof.Machine
end

