-- ==== Sys2Proof/Machine/Banks.lean ====
section
/-!
DEFINITION. The banks of the memory stacks (R214 to R220, R235): uncorrectable reads, offline banks and
their remapping, refresh. A bank is named by its page id without the page: 17 bits (R215).
-/

namespace Sys2Proof.Machine

def State.setBank (s : State) (b : Nat) (x : Bank) : State := { s with banks := s.banks.set {} b x }

/-- The row that holds page headers (R214). -/
def headerRow : Nat := 2047

/-- The DPA of a 64-byte line of a data row of a bank (R217). -/
def State.dpaOfRow (s : State) (b row line : Nat) : Nat :=
  let stack := b / 2 ^ 14
  match s.dpaOfPage (b * 128 + row / 16) with
  | some a => a + row % 16 * 2048 + line * 64
  | none =>
    stack / 2 * 2 ^ 37 + (row * 12 + b / 2 ^ 4 % 16) * 2 ^ 22 + line * 2 ^ 17 + b % 16 * 2 ^ 13
      + stack % 2 * 2 ^ 12 + b / 2 ^ 8 % 64 * 2 ^ 6

/-- The bank, the row and the place in it that hold a DPA (R217). -/
def State.rowOf (s : State) (dpa : Nat) : Nat × Nat × Nat :=
  match s.pageOf dpa with
  | some id => (id / 128, id % 128 * 16 + dpa % 2 ^ 15 / 2048, dpa % 2048)
  | none =>
    let o := dpa % 2 ^ 37
    (s.bankOf dpa, o / 2 ^ 22 / 12, o / 2 ^ 17 % 32 * 64 + o % 64)

/-- The DPA that names in state `t` the byte that a DPA names in state `s` (R216). -/
def State.renamed (s t : State) (dpa : Nat) : Nat :=
  if dieBytes ≤ dpa % 2 ^ 37 then dpa
  else
    let x := s.rowOf dpa
    t.dpaOfRow x.1 x.2.1 (x.2.2 / 64) + x.2.2 % 64

/-- The KV region is set: every byte stays in its row and gets a new address (R216; DESIGN CHOICE, log 69). -/
def State.setSplit (s : State) (v : BitVec 7) : State :=
  let t := { s with kvp := v }
  let line (l : Nat) : Nat := s.renamed t (64 * l) / 64
  { t with
    device := s.device.foldl (fun m e => m.write (s.renamed t e.1) [e.2]) []
    poison := s.poison.map line
    corrected := s.corrected.map line }

/-- The lines of a data row, as line numbers of device memory. -/
def State.rowLines (s : State) (b row : Nat) : List Nat :=
  (List.range 32).map (fun i => s.dpaOfRow b row i / 64)

/-- The rows of a bank that cannot be read: those that hold an uncorrectable line, and those listed. -/
def State.failingRows (s : State) (b : Nat) : List Nat :=
  ((List.range 2032).filter (fun r => (s.rowLines b r).any (fun l => s.poison.contains l))
    ++ (s.bank b).badRows).eraseDups

/-- Whether a bank scans (R219). -/
def State.scanningIn (s : State) (b : Nat) : Bool :=
  s.scans.any (fun x => x.page / 128 == b && (match x.state with
    | .scanning .. => true
    | _ => false))

/-! ### Offline banks (R235) -/

/-- One second in tc. -/
def secondTc : Nat := 600000000

/-- Whether a partition holds a range on a die. -/
def Partition.onDie (p : Partition) (d : Nat) : Bool :=
  p.ranges.any (fun r => r.1 < (d + 1) * 2 ^ 37 && d * 2 ^ 37 < r.1 + r.2.1)

/-- The bank-offline events of R235: PF0, and every function of every partition with a range on the bank's
die. -/
def State.offlineEvents (s : State) (b : Nat) : State :=
  let fs := s.parts.toList.flatMap (fun p => if p.onDie (b / 2 ^ 15) then p.functions else [])
  (0 :: fs).foldl (fun s f => s.event f 0x03 0 (w64 (b * 128)) 0) s

/-- A result record without a result (R233), with the corrected reads and the tokens of a scan that began. -/
def emptyRecord (status detail ncorr tokens page : Nat) : List Byte :=
  bytesOfWords [w64 (status * 2 ^ 56 + detail * 2 ^ 48 + Nat.min 255 ncorr * 2 ^ 40 + tokens % 512 * 2 ^ 31 + page),
    w64 0xFF800000] ++ List.replicate 512 0

/-- The format that a query asks for (R401). -/
def PageScan.fmt (x : PageScan) : Nat := (if x.bf then 2 else 0) + (if x.dim64 then 1 else 0)

/-- The lines of a token, by its format (R226). -/
def tokenLines (fmt : Nat) : Nat :=
  match fmt with
  | 1 => 2
  | 2 => 8
  | _ => 4

/-- The time of a scan of lines, one in a column cycle of 4 ns, in tc (R234). -/
def scanTime (lines : Nat) : Nat := (lines * 12 + 4) / 5

/-- The lines that a scan of `n` has read when `left` tc of it remain. -/
def scanned (n left : Nat) : Nat := n - (left * 5 + 11) / 12

/-- A scan in a bank that goes offline (R236): the tokens counted by then, and the corrected reads up to the last
line that it has read. -/
def PageScan.cutOff (x : PageScan) (b tide : Nat) : PageScan :=
  match x.state with
  | .scanning n fixed _ => if x.page / 128 = b then
      let m := scanned n (x.due - tide)
      { x with
        state := .scanning 0 [] (emptyRecord 0x03 0x01 (fixed.countP (fun i => decide (i ≤ m)))
          (m / tokenLines x.fmt) x.page)
        due := tide } else x
  | _ => x

/-- A bank goes offline: events, the end of its scan, and with BREMAP 0 the remap by firmware. -/
def State.takeOffline (s : State) (b : Nat) : State :=
  let s := s.setBank b { s.bank b with offline := true, errors := [] }
  let s := { s with scans := s.scans.map (fun (x : PageScan) => x.cutOff b s.tide) }.offlineEvents b
  if s.bremap then s
  else
    let rows := s.failingRows b
    let (d, s) := s.later 1
    s.due d (.bankRemapComplete b rows rows) 0

/-- An uncorrectable read in a bank: the second within 1 s takes it offline. -/
def State.uncorrectableRead (s : State) (b : Nat) : State :=
  let k := s.bank b
  if k.offline then s
  else
    let es := k.errors.filter (fun t => s.tide < t + secondTc) ++ [s.tide]
    if es.length < 2 then s.setBank b { k with errors := es } else s.takeOffline b

/-- The uncorrectable read of the first of some addresses whose walk meets a table entry that cannot be read (R235). -/
def State.countTables (s : State) (p : Nat) (vas : List Nat) : State :=
  match vas.findSome? (fun va => match s.walk p 0 .load va with
    | .error (.unread a) => some a
    | _ => none) with
  | some a => s.uncorrectableRead (s.bankOf a)
  | none => s

/-- Content that a lost row leaves undefined (R235): any bytes. -/
def State.lostBytes (s : State) (n : Nat) : List Byte :=
  (List.range n).map (fun i => Config.lostByte s.fresh i)

/-- A data row that could not be copied: its page can be read again, with undefined content, and its next
scan is uncorrectable until a START append. -/
def State.loseRow (s : State) (b row : Nat) : State :=
  let k := s.bank b
  let page := row / 16
  let s := s.setBank b { k with undefinedPages := (k.undefinedPages ++ [page]).eraseDups }
  (List.range 512).foldl (fun s i =>
    { s with
      device := s.device.write (s.dpaOfRow b (page * 16 + i / 32) (i % 32)) (s.lostBytes 64)
      fresh := s.fresh + 1 }) s

/-- The header row could not be copied: its headers hold anything. -/
def State.loseHeaders (s : State) (b : Nat) : State :=
  (List.range 127).foldl (fun s j => { s with
    headers := s.headers.set 0 (b * 128 + j) (BitVec.ofNat 128 (natOfBytes (s.lostBytes 16)))
    fresh := s.fresh + 1 }) s

/-- Rows remapped to spare rows, with those that could not be copied lost, and the bank back. With more
rows than spare rows left the bank stays offline (R235). -/
def State.remap (s : State) (b : Nat) (rows lost : List Nat) : State :=
  let k := s.bank b
  if !k.offline || 15 < k.spares + rows.length then s
  else
    let gone := (rows.filter (· != headerRow)).flatMap (s.rowLines b)
    let s := { s with poison := s.poison.filter (fun l => !gone.contains l) }
    let s := s.setBank b { k with
      offline := false
      spares := k.spares + rows.length
      badRows := k.badRows.filter (fun r => !rows.contains r) }
    lost.foldl (fun s r => if r = headerRow then s.loseHeaders b else s.loseRow b r) s

/-- BANK_REMAP_COMPLETE (R235). -/
def execBankRemapComplete (bank : Nat) (rows lost : List Nat) (s : State) :
    Host.Outcome State Fault Refusal :=
  .next (s.remap bank rows lost)

/-- BANK_REMAP_COMMAND (R75): the host names an offline bank and spare rows; as many failing rows are
remapped, and the bank comes back though fewer spare rows than failing ones are named, for which no rule gives
an outcome (log 48). -/
def execBankRemapCommand (bank : Nat) (rows : List Nat) (s : State) :
    Host.Outcome State Fault Refusal :=
  let fails := (s.failingRows bank).take rows.length
  let busy := s.agenda.any (fun d => match d.ev with
    | .bankRemapComplete b _ _ => b == bank
    | _ => false)
  .next (if busy || !rows.all (fun r => 2032 ≤ r && r < headerRow) then s
    else s.remap bank fails fails)

/-! ### Refresh (R220) -/

/-- The period of a bank's refresh, 1.95 µs, and the longest pause, 280 ns. -/
def refreshPeriod : Nat := 1170
def refreshPause : Nat := 168

/-- The next refresh of a bank after a tide. -/
def nextRefresh (b t : Nat) : Nat := t + refreshPeriod - (t + Config.refreshPhase b) % refreshPeriod

/-- BANK_REFRESH (R220): a scan in the bank pauses and goes on; while one scans there, the next refresh is
looked for. -/
def execBankRefresh (bank : Nat) (s : State) : Host.Outcome State Fault Refusal :=
  let pause := Config.latency s.fresh % (refreshPause + 1)
  .next (if s.scanningIn bank then
      { s with
        fresh := s.fresh + 1
        scans := s.scans.map (fun (x : PageScan) => match x.state with
          | .scanning .. => if x.page / 128 = bank then { x with due := x.due + pause } else x
          | _ => x) }.due (nextRefresh bank s.tide) (.bankRefresh bank) 0
    else s)

end Sys2Proof.Machine
end

