-- ==== Sys2Proof/Machine/Values.lean ====
section
/-!
DEFINITION. The value heap and its count table (spec/08_values.md): handles, allocation, counts, the
pending reuse run, Cooling and reclaim.
-/

namespace Sys2Proof.Machine

/-- The reclaim horizon (R184, R187). -/
def reclaimHorizon : Nat := 512

/-- The handle of a block with its present tag (R148, R181). -/
def Core.handleOf (k : Core) (b : Nat) : W64 :=
  w64 (11 * 2 ^ 60 + k.vid * 2 ^ 40 + (k.block b).tag.toNat * 2 ^ 16 + b)

/-- The scratchpad offset of a block (R178). -/
def Core.blockAddr (k : Core) (b : Nat) : Nat := k.heapBase + b * 4096

/-- The head block that a handle names, with the checks of R181: 0x0D, 0x0C, then 0x13. A Cooling
value is still valid. -/
def Core.resolve (k : Core) (h : W64) : Checked Nat :=
  match spaceOf h with
  | .bad => .error (0x0D, h)
  | .value c tag b =>
    if c ≠ k.vid then .error (0x0C, h)
    else
      let x := k.block b
      if b < k.heapBlocks && x.head && (x.state == .live || x.state == .cooling)
          && x.tag.toNat == tag then .ok b
      else .error (0x13, h)
  | .scratch c _ => .error (if c ≠ k.vid then 0x0C else 0x13, h)
  | .cohort c _ => .error (if c ≠ cohortOf k.vid then 0x0C else 0x13, h)
  | _ => .error (0x13, h)

/-- As `resolve`, with a Cooling value refused (R184). -/
def Core.resolveLive (k : Core) (h : W64) : Checked Nat :=
  match k.resolve h with
  | .ok b => if (k.block b).state == .live then .ok b else .error (0x13, h)
  | e => e

/-- Whether a handle that a word read still names its value at a later read (R187). -/
def Core.stillValid (k : Core) (h : W64) : Bool :=
  match k.resolve h with
  | .ok _ => true
  | .error _ => false

/-- Whether `n` blocks from `b` are Free. -/
def Core.freeRun (k : Core) (b : Nat) : Nat → Bool
  | 0 => true
  | n + 1 => (k.block (b + n)).state == .free && k.freeRun b n

/-- The Free run of `n` blocks with the lowest head (R180). -/
def Core.findRun (k : Core) (n : Nat) : Option Nat :=
  (List.range (k.heapBlocks + 1 - n)).find? (fun b => k.freeRun b n)

/-- The number of Free blocks (R178). -/
def Core.freeBlocks (k : Core) : Nat :=
  (List.range k.heapBlocks).countP (fun b => (k.block b).state == .free)

/-- The blocks of a run, each updated with its place in the run. -/
def Core.overRun (k : Core) (b : Nat) : Nat → (Nat → Block → Block) → Core
  | 0, _ => k
  | n + 1, f => (k.overRun b n f).setBlock (b + n) (f n ((k.overRun b n f).block (b + n)))

/-- A run made a Live value of count 1 (R180, R184). Readers of a value that stood there keep their holds (R188). -/
def Core.makeLive (k : Core) (b n : Nat) (shape : W32) : Core :=
  k.overRun b n (fun i x =>
    if i = 0 then
      { x with state := .live, head := true, len := n - 1, count := 1, shape := shape }
    else { x with state := .live, head := false, len := 0, count := 0, shape := 0 })

/-- A run sent to Cooling (R184, R186). -/
def Core.makeCooling (k : Core) (b n recl : Nat) : Core :=
  k.overRun b n (fun i x =>
    if i = 0 then { x with state := .cooling, head := true, len := n - 1, count := 0, recl := recl }
    else { x with state := .cooling, head := false, len := 0, count := 0, recl := recl })

/-- A run made the pending reuse run (R184, R186). -/
def Core.makeReuse (k : Core) (b n : Nat) : Core :=
  { k.overRun b n (fun i x =>
      if i = 0 then { x with state := .reuse, head := true, len := n - 1, count := 0 }
      else { x with state := .reuse, head := false, len := 0, count := 0 }) with
    reuse := some (b, n) }

/-- The pending reuse run, if any, sent to Cooling (R186). -/
def Core.coolReuse (k : Core) (tide : Nat) : Core :=
  match k.reuse with
  | none => k
  | some (b, n) => { k.makeCooling b n (tide + reclaimHorizon) with reuse := none }

/-- Storage for a copying word (R180): the head and the core, or 0x12. -/
def Core.allocate (k : Core) (n : Nat) (shape : W32) : Checked (Nat × Core) :=
  match k.findRun n with
  | some b => .ok (b, k.makeLive b n shape)
  | none => .error (0x12, w64 n)

/-- Storage for TMKV or LDV (R186): the pending reuse run where it is long enough, its remainder
sent to Cooling; a run that is too short goes to Cooling first. -/
def Core.produce (k : Core) (n : Nat) (shape : W32) (tide : Nat) : Checked (Nat × Core) :=
  match k.reuse with
  | none => k.allocate n shape
  | some (b, m) =>
    if n ≤ m then
      let k := { k with reuse := none }
      let k := if n < m then k.makeCooling (b + n) (m - n) (tide + reclaimHorizon) else k
      .ok (b, k.makeLive b n shape)
    else (k.coolReuse tide).allocate n shape

/-- Blocks of a Cooling value become Free and their tags move on (R187). -/
def Core.reclaim (k : Core) (b : Nat) : Core :=
  k.overRun b ((k.block b).len + 1) (fun _ x =>
    { x with state := .free, head := false, len := 0, count := 0, shape := 0, recl := 0,
             tag := x.tag + 1 })

/-- The Cooling values whose reclaim tide has come (R187). -/
def Core.dueReclaims (k : Core) (tide : Nat) : List Nat :=
  (k.blocks.filter (fun e => e.2.state == .cooling && e.2.head && e.2.recl ≤ tide)).map Prod.fst

/-- An untimed reader takes hold of the blocks of a value, or lets them go (R188). -/
def Core.holdValue (k : Core) (b n : Nat) : Core :=
  k.overRun b n (fun _ x => { x with holds := x.holds + 1 })
def Core.unholdValue (k : Core) (b n : Nat) : Core :=
  k.overRun b n (fun _ x => { x with holds := x.holds - 1 })

/-- Whether an untimed reader holds a block of a run of blocks (R188). -/
def Core.heldRun (k : Core) (b n : Nat) : Bool := (List.range n).any (fun i => (k.block (b + i)).holds != 0)

/-- The blocks of `n` bytes. -/
def blocksOf (n : Nat) : Nat := (n + 4095) / 4096

/-- The heap of a stopped or restarted gang (R118, R191): empty, every tag moved on. -/
def Core.emptyHeap (k : Core) : Core :=
  { (k.overRun 0 k.heapBlocks (fun _ x => { tag := x.tag + 1 })) with reuse := none }

/-- The heap of an accepted VHEAP write: every block Free with tag 0 (R178). -/
def Core.freshHeap (k : Core) (v : W64) : Core :=
  { k with vheap := v, blocks := [], reuse := none }

/-- A word whose checks may fail: the fault is precise at its issue. -/
def State.checked {α : Type} (s : State) (r : Checked α) (f : α → State → State) : State :=
  match r with
  | .ok x => f x s
  | .error (code, info) => s.trap code info

/-- The first check of a list that fails (R149, R341): each entry is whether the check holds, and the
cause and FINFO of its fault. -/
def firstFault : List (Bool × Nat × W64) → Option (Nat × W64)
  | [] => none
  | (ok, code, info) :: rest => if ok then firstFault rest else some (code, info)

/-- A word with checks at issue: the first that fails is a precise fault, and nothing else happens. -/
def State.guarded (s : State) (checks : List (Bool × Nat × W64)) (f : State → State) : State :=
  match firstFault checks with
  | some (code, info) => s.trap code info
  | none => f s

end Sys2Proof.Machine
end

