-- ==== Sys2Proof/Machine/Tiles.lean ====
section
/-!
DEFINITION. Tile registers (R337 to R341): shape words, rows and elements, the image of a tile, row
cursors, and the checks of a tile operand.
-/

namespace Sys2Proof.Machine

/-! ### Shape words (R337, R338) -/

def shapeType (w : W32) : Nat := bits w.toNat 31 28
def shapeRows (w : W32) : Nat := bits w.toNat 14 8 + 1
def shapeCols (w : W32) : Nat := bits w.toNat 6 0 + 1

/-- The number of elements of a shape. -/
def shapeCount (w : W32) : Nat := shapeRows w * shapeCols w

/-- Bytes of one row. -/
def rowBytes (w : W32) : Nat := shapeCols w * elemBits (shapeType w) / 8

/-- Bytes of the elements. -/
def elemBytes (w : W32) : Nat := shapeRows w * rowBytes w

/-- Scale bytes of one row: one for each block of 32 elements of a K type (R258). -/
def rowScales (w : W32) : Nat := if isK (shapeType w) then shapeCols w / 32 else 0

/-- Bytes of the image: the elements, then the scales (R386, R346). -/
def imageBytes (w : W32) : Nat := elemBytes w + shapeRows w * rowScales w

/-- An acceptable shape whose elements take at most `limit` bytes (R338, R389). -/
def shapeFits (limit : Nat) (w : W32) : Bool :=
  bits w.toNat 27 15 == 0 && bits w.toNat 7 7 == 0 &&
  shapeCount w * elemBits (shapeType w) ≤ limit * 8 &&
  (!isK (shapeType w) || shapeCols w % 32 == 0)

/-- An acceptable tile shape (R338). -/
def shapeOk (w : W32) : Bool := shapeFits 8192 w

/-- A whole number of 64-byte lines. -/
def lineCount (n : Nat) : Nat := (n + 63) / 64

def Tile.ty (t : Tile) : Nat := shapeType t.shape
def Tile.rows (t : Tile) : Nat := shapeRows t.shape
def Tile.cols (t : Tile) : Nat := shapeCols t.shape

/-! ### Elements -/

/-- Elements of `w` bits out of bytes, the lowest first; four-bit elements stand low nibble first
(R5, R264). -/
def unpack (w : Nat) (bs : List Byte) : List Nat :=
  if w = 4 then bs.flatMap (fun b => [b.toNat % 16, b.toNat / 16])
  else wordsOf (w / 8) (bs.length / (w / 8)) bs

def packNibbles : List Nat → List Byte
  | a :: b :: rest => BitVec.ofNat 8 (a % 16 + b % 16 * 16) :: packNibbles rest
  | [a] => [BitVec.ofNat 8 (a % 16)]
  | [] => []

/-- Bytes of elements of `w` bits. -/
def packElems (w : Nat) (xs : List Nat) : List Byte :=
  if w = 4 then packNibbles xs else xs.flatMap (fun x => bytesOfNat (w / 8) x)

/-- The bytes of row r. -/
def Tile.rowData (t : Tile) (r : Nat) : List Byte :=
  t.data.read (r * rowBytes t.shape) (rowBytes t.shape)

/-- The elements of row r. -/
def Tile.row (t : Tile) (r : Nat) : List Nat := unpack (elemBits t.ty) (t.rowData r)

/-- The scales of row r of a K tile. -/
def Tile.rowScale (t : Tile) (r : Nat) : List Byte :=
  t.side.read (r * rowScales t.shape) (rowScales t.shape)

/-- The image of a tile, padded with zeros to a whole number of lines (R386, R391). -/
def Tile.image (t : Tile) : List Byte :=
  let bs := t.data.read 0 (elemBytes t.shape) ++ t.side.read 0 (t.rows * rowScales t.shape)
  bs ++ List.replicate (64 * lineCount bs.length - bs.length) 0

/-- Bytes of an image written at an offset: elements to the storage, scales to the sideband, padding
nowhere. -/
def Tile.putImage (t : Tile) (off : Nat) (bs : List Byte) : Tile :=
  let n := elemBytes t.shape
  let m := imageBytes t.shape
  let bs := bs.take (m - off)
  { t with
    data := t.data.write off (bs.take (n - off))
    side := if n < off + bs.length then t.side.write (Nat.max off n - n) (bs.drop (n - off))
      else t.side }

/-- A write to a tile sets D and clears Z (R144), and in a handler makes an absent tile present
(R146). -/
def Tile.touched (t : Tile) : Tile := { t with d := true, z := false, a := false }

/-- A tile as TCFG leaves it (R343). -/
def Tile.configured (t : Tile) (w : W32) : Tile :=
  { t with c := true, d := false, z := true, a := false, cur := 0, shape := w, data := [],
           side := [] }

/-! ### TSHAPE (R337) -/

def Tile.tshape (t : Tile) : W64 :=
  w64 ((if t.c then 2 ^ 63 else 0) + (if t.d then 2 ^ 62 else 0) + (if t.z then 2 ^ 61 else 0) +
    (if t.a then 2 ^ 60 else 0) + t.cur % 128 * 2 ^ 40 + t.shape.toNat)

/-! ### Checks (R341) -/

/-- HMODE.TREST (R70). -/
def Core.trest (k : Core) : Bool := wbit k.hmode 2

/-- FINFO of a tile type mismatch (R341). -/
def typeInfo (kind tile ty payload : Nat) : W64 :=
  w64 (payload % 2 ^ 32 * 2 ^ 32 + ty % 16 * 256 + kind * 16 + tile % 16)

/-- An entry of a check list for kind `kind` of 0x09 on tile n. -/
def typeCheck (ok : Bool) (kind n : Nat) (t : Tile) (payload : Nat := 0) : Bool × Nat × W64 :=
  (ok, 0x09, typeInfo kind n t.ty payload)

/-- Steps 1 and 2 of R341 for one tile: C set, and not absent where TREST asks for a trap. A handler
may touch an absent tile, to reload it (R146). -/
def Core.tileChecks (k : Core) (n : Nat) : List (Bool × Nat × W64) :=
  [((k.tile n).c, 0x08, w64 n),
   (!((k.tile n).a && k.mode != .handler), 0x08, w64 (n + 16))]

/-! ### Row cursors (R340) -/

/-- The tiles that a word advances, each once. -/
def bumped (xs : List (Bool × Nat)) : List Nat :=
  ((xs.filter Prod.fst).map Prod.snd).eraseDups

/-- Cursors advanced at issue + 1. -/
def State.advance (s : State) (ts : List Nat) (step : Nat) : State :=
  ts.foldl (fun s n => s.post 1 (.cursor n (((s.me.tile n).cur + step) % (s.me.tile n).rows))) s

end Sys2Proof.Machine
end

