-- ==== Sys2Proof/Machine/Fetch.lean ====
section
/-!
DEFINITION. Fetch and the splitter (R123, R302, R110, R111), what fetch knows of loops (R315 to R317),
and the tides at which the words of a queue issue (R124, R296, R297, R315).
-/

namespace Sys2Proof.Machine

/-! ### The instruction store (R110, R302) -/

/-- Whether a lease lets fetch read its row: a lease of the task that the core runs, or, before that task's
start, of the task that will. -/
def Lease.readable (l : Lease) (task : Option Nat) (row : Nat) : Bool :=
  l.task == task.getD l.task && l.row == row && l.state != .loading

/-- The word at a stream address; the all-zero word beyond the kernel's rows (R302). -/
def Core.streamWord (k : Core) (krows addr : Nat) : Option W32 :=
  if krows * 256 ≤ addr then some 0
  else
    (k.lease.find? (fun e => e.2.readable k.task (addr / 256))).map (fun e =>
      Sparse.get 0 k.istore (e.1 * 256 + addr % 256))

/-! ### Words that fetch recognises -/

def isGate (w : W32) : Bool := opOf w == 0x3D
def isWait (w : W32) : Bool := opOf w == 0x3E
def isGuard (w : W32) : Bool := opOf w == 0x3F
def isLoop (w : W32) : Bool := engineOf w == 0 && opOf w == 0x1A
def isEndl (w : W32) : Bool := engineOf w == 0 && opOf w == 0x1B
def isHalt (w : W32) : Bool := engineOf w == 0 && opOf w == 0x1D
def isReth (w : W32) : Bool := engineOf w == 7 && opOf w == 0x04

/-- A word that no GUARD may stand before (R300). -/
def unguardable (w : W32) : Bool :=
  isGate w || isWait w || isGuard w || isLoop w || isEndl w || isHalt w

/-- The trip count and the period of a LOOP (R314); the count of a launch register outside 1 to 2^24
traps at the LOOP's issue and counts as 1 here. -/
def loopTrips (k : Core) (w : W32) : Nat :=
  let n := if wbit (w.setWidth 64) 19 then (k.reg (24 + bits w.toNat 12 10)).toNat
    else bits w.toNat 18 10
  if n = 0 || 2 ^ 24 < n then 1 else n
def loopPeriod (w : W32) : Nat := bits w.toNat 9 0

/-! ### Loops at fetch (R315 to R317) -/

/-- Whether a gateless loop has not yet had a word of a queue in this iteration. -/
def LoopFrame.unseen (f : LoopFrame) (e : Nat) : Bool := 0 < f.period && !f.seen.contains e

/-- The loop and the offset that the first body word of a queue is timed from in a later iteration. -/
def rebaseOf (loops : List LoopFrame) (e : Nat) : Option (Nat × Nat) :=
  (loops.zipIdx.find? (fun f => f.1.unseen e && f.1.iter != 0)).map (fun f =>
    (f.2, f.1.iter * f.1.period))

/-- The loops whose first body word of iteration 0 a word is, for its queue. -/
def enterOf (loops : List LoopFrame) (e : Nat) : List Nat :=
  (loops.zipIdx.filter (fun f => f.1.unseen e && f.1.iter == 0)).map Prod.snd

/-- The loops after a word of a queue. -/
def sawWord (loops : List LoopFrame) (e : Nat) : List LoopFrame :=
  loops.map (fun f => if f.unseen e then { f with seen := e :: f.seen, ever := e :: f.ever } else f)

/-- The loops after a GATE word; a gateless loop that holds one has a refused shape (R132). -/
def sawGate (loops : List LoopFrame) : List LoopFrame :=
  loops.map (fun f => { f with gates := f.gates + 1, bad := f.bad || f.period != 0 })

/-- A LOOP that R317 refuses: nested too deep, or of whole segments in a gateless loop. -/
def badLoop (st : Stream) (w : W32) : Bool :=
  4 ≤ st.loops.length || (loopPeriod w == 0 && st.loops.any (fun f => f.period != 0))

/-- An ENDL with no open loop, or at the end of a body of a refused shape (R132, R316, R317). -/
def badEndl (st : Stream) : Bool :=
  match st.loops.getLast? with
  | none => true
  | some f => f.bad || (f.period == 0 && !(f.gates != 0 && st.segFirst))

/-- The open loops and the next address after a word. -/
def nextLoops (k : Core) (st : Stream) (w : W32) : List LoopFrame × Nat :=
  if isLoop w && !badLoop st w then
    let f : LoopFrame :=
      { addr := st.pc, iter := 0, trips := loopTrips k w, period := loopPeriod w, skips := st.skips }
    (st.loops ++ [{ f with bad := loopPeriod w == 0 && !st.segFirst }], st.pc + 1)
  else if isEndl w && !badEndl st then
    match st.loops.getLast? with
    | some f =>
      if f.iter + 1 < f.trips then
        (st.loops.dropLast ++ [{ f with iter := f.iter + 1, seen := [] }], f.addr + 1)
      else (st.loops.dropLast, st.pc + 1)
    | none => (st.loops, st.pc + 1)
  else if isGate w then (sawGate st.loops, st.pc + 1)
  else (st.loops, st.pc + 1)

/-- The tides that each queue has to skip after an ENDL (R315): after a gateless loop, those of the
iterations in which a queue without a body word has nothing; at an iteration's end, those that were
pending at the LOOP, since the next iteration is timed from it. -/
def closingSkips (st : Stream) (w : W32) : Sparse Nat :=
  match st.loops.getLast? with
  | some f =>
    if !isEndl w || badEndl st then st.skips
    else if f.iter + 1 < f.trips then f.skips
    else
      (List.range 8).foldl (fun m e =>
        if f.ever.contains e then m
        else Sparse.set 0 m e (Sparse.get 0 m e + (f.trips - 1) * f.period)) st.skips
  | none => st.skips

/-! ### Delivering a word -/

/-- The last word of a queue marked as a misplaced GUARD. -/
def Queue.spoil (q : Queue) : Queue :=
  match q.words.getLast? with
  | some w => { q with words := q.words.dropLast ++ [{ w with bad := true }] }
  | none => q

/-- The GATE words of the queues beyond the segments passed, after a word, and whether the word ends a
segment in stream order: each of the eight queues has had its GATE (R129). -/
def Stream.gatesAfter (st : Stream) (w : W32) : Sparse Nat × Bool :=
  if isGate w then
    let m := Sparse.set 0 st.gated (engineOf w) (Sparse.get 0 st.gated (engineOf w) + 1)
    if (List.range 8).all (fun e => 0 < Sparse.get 0 m e) then
      ((List.range 8).foldl (fun m e => Sparse.set 0 m e (Sparse.get 0 m e - 1)) m, true)
    else (m, false)
  else (st.gated, false)

/-- A word of the stream taken into its queue, with what fetch learns from it. `ends` says that the
stream ends with it; at a HALT fetch stops where it stands (R318). -/
def Core.deliver (k : Core) (w : W32) (ends : Bool) : Core :=
  let st := k.stream
  let e := engineOf w
  let queues := match st.guarding with
    | some g => if e != g || unguardable w then vset st.queues g (vget {} st.queues g).spoil
      else st.queues
    | none => st.queues
  let gates := st.gatesAfter w
  let segs := if st.afterGate then
      st.segs ++ [⟨st.pc, st.loops.map (fun f => (f.addr, f.iter, f.trips))⟩]
    else st.segs
  let rebase := if isGuard w then none else rebaseOf st.loops e
  let entry : QWord :=
    { addr := st.pc, word := w, rebase := rebase
      enter := if isGuard w then [] else enterOf st.loops e
      skip := if isGuard w || rebase.isSome then 0 else Sparse.get 0 st.skips e
      bad := (isLoop w && badLoop st w) || (isEndl w && badEndl st)
        || (isHalt w && !st.loops.isEmpty) }
  let st' := if isGuard w then st
    else { st with loops := sawWord st.loops e, skips := Sparse.set 0 st.skips e 0 }
  let next := nextLoops k st' w
  { k with stream := { st' with
      queues := vset queues e { vget {} queues e with words := (vget {} queues e).words ++ [entry] }
      pc := if isHalt w then st.pc else next.2
      loops := next.1
      skips := closingSkips st' w
      fetching := !ends
      segFirst := gates.2
      afterGate := gates.2
      gated := gates.1
      guarding := if isGuard w then some e else none
      segs := segs } }

/-- One word fetched; none where fetch has ended, its row is not there, or the word's queue holds
`limit` words (R123). -/
def Core.fetchWord (k : Core) (krows limit : Nat) : Option Core :=
  let st := k.stream
  if !st.fetching then none
  else
    match k.streamWord krows st.pc with
    | none => none
    | some w =>
      if limit ≤ (k.queue (engineOf w)).words.length then none
      else some (k.deliver w (krows * 256 ≤ st.pc || isHalt w ||
        (isReth w && k.mode == .handler && st.guarding.isNone)))

/-- Up to `n` words fetched. -/
def Core.fetchWords (k : Core) (krows limit : Nat) : Nat → Core
  | 0 => k
  | n + 1 =>
    match k.fetchWord krows limit with
    | some k' => k'.fetchWords krows limit n
    | none => k

/-- The rows that fetch has passed become Free (R111); a handler's fetch frees none. -/
def Core.freeRows (k : Core) : Core :=
  if k.saved.isSome then k
  else
    { k with lease := k.lease.filter (fun e =>
        !(some e.2.task == k.task && e.2.state == .live && (e.2.row + 1) * 256 ≤ k.stream.pc
          && k.stream.loops.all (fun f => e.2.row < (f.addr + 1) / 256))) }

/-- The rows of the kernel that a core runs (R56). -/
def State.krows (s : State) (c : Nat) : Nat :=
  ((s.taskOf c).map (fun k => wbits (k.word 5) 6 0)).getD 0

/-- The rows of the kernel that a core fetches: that of its task, or of the task placed on it. -/
def State.fetchRows (s : State) (c : Nat) : Nat :=
  (((s.taskOf c).or ((s.tasks.find? (fun e => e.2.state == .loading && e.2.cores.contains c)).map Prod.snd)).map
    (fun k => wbits (k.word 5) 6 0)).getD 0

/-- FETCH (R123). -/
def execFetch (core : Nat) (s : State) : Host.Outcome State Fault Refusal :=
  .next (s.modCore core (fun k => (k.fetchWords (s.fetchRows core) 64 4).freeRows))

/-! ### Issue points (R124, R296, R297, R315) -/

/-- The word that a queue issues next, behind its GUARD if it has one. -/
def Queue.head (q : Queue) : Option (Option QWord × QWord) :=
  match q.words with
  | [] => none
  | g :: rest =>
    if isGuard g.word && !g.bad then rest.head?.map (fun w => (some g, w)) else some (none, g)

/-- The issue point + 1 that a word is timed from. -/
def Queue.baseOf (q : Queue) (w : QWord) : Nat :=
  match w.rebase with
  | some (d, off) => Sparse.get 0 q.qentry d + off
  | none => q.nxt + w.skip

/-- The tide at which a word issues. -/
def Queue.issueTide (q : Queue) (w : QWord) : Nat := q.baseOf w + idleOf w.word

/-- An iteration that would not follow the one before it (R315). -/
def Queue.overrun (q : Queue) (w : QWord) : Bool := w.rebase.isSome && q.issueTide w < q.nxt

/-- A queue after a word has issued at its tide; WAIT moves the issue point on in its meaning. -/
def Queue.advance (q : Queue) (w : QWord) : Queue :=
  let t := q.issueTide w
  { q with
    words := q.words.drop 1
    nxt := t + 1
    qentry := w.enter.foldl (fun m d => Sparse.set 0 m d (q.baseOf w)) q.qentry
    guard := none }

/-- The words that a queue will issue up to a tide, with their tides, as far as the queue holds them
and no further than its GATE. -/
def Queue.upcoming (q : Queue) (limit : Nat) : Nat → List (Option QWord × QWord × Nat)
  | 0 => []
  | n + 1 =>
    if q.arrived then []
    else
      match q.head with
      | none => []
      | some (g, w) =>
        let t := q.issueTide w
        if limit < t then []
        else
          let q' := ({ q with words := if g.isSome then q.words.drop 1 else q.words }).advance w
          let q' := if isWait w.word then { q' with nxt := q'.nxt + bits w.word.toNat 19 0 } else q'
          (g, w, t) :: (if isGate w.word then [] else q'.upcoming limit n)

/-- A gateless loop whose body has no word of a queue, at its last iteration: for that queue the
iterations between hold nothing. -/
def Core.hasten (k : Core) (e : Nat) : Core :=
  match k.stream.loops.getLast? with
  | some f =>
    if f.period != 0 && 0 < f.iter && !f.ever.contains e then
      { k with stream := { k.stream with
          loops := k.stream.loops.dropLast ++ [{ f with iter := f.trips - 1 }] } }
    else k
  | none => k

/-- A core whose other queues are empty. -/
def Core.only (k : Core) (e : Nat) : Core :=
  { k with stream := { k.stream with
      queues := vset (Vector.replicate 8 {}) e (vget {} k.stream.queues e) } }

/-- A core that has fetched on, without regard to the depth of its queues, until a queue, the
one that is kept, holds as many words as asked: what the stream holds for that queue, whether or not fetch has
reached it. -/
def Core.lookMore (k : Core) (krows e want : Nat) : Nat → Core
  | 0 => k
  | n + 1 =>
    if want ≤ (k.queue e).words.length then k
    else
      match (k.hasten e).fetchWord krows (2 ^ 20) with
      | some k' => (k'.only e).lookMore krows e want n
      | none => k

/-- Steps of fetch that take every body of a kernel twice at each of four depths of loops. -/
def lookFuel (krows : Nat) : Nat := 16 * (krows * 256 + 1)

/-- The word that follows in a queue, in the queue or still in the stream. -/
def Core.following (k : Core) (krows e : Nat) : Option W32 :=
  ((k.lookMore krows e 1 (lookFuel krows)).queue e).words.head?.map QWord.word

end Sys2Proof.Machine
end

