-- ==== Sys2Proof/Machine/Control.lean ====
section
/-!
DEFINITION. Loops and the end of the stream (R314 to R318), the universal words (R295 to R297), RMODE
(R271), the trap of a word that no instruction defines (R300), and the placing of gate-class words
(R129).
-/

namespace Sys2Proof.Machine

/-! ### Loops and the end of the stream -/

/-- FINFO of 0x17 (R140). -/
def shapeFault (s : State) : Nat × W64 := (0x17, w64 (s.cur.q.addr % 2 ^ 14))

/-- A check that takes 0x17. -/
def State.shapeCheck (s : State) (ok : Bool) : Bool × Nat × W64 := (ok, shapeFault s)

/-- A loop that fetch has found misplaced or misshapen (R317). -/
def State.loopCheck (s : State) : Bool × Nat × W64 := s.shapeCheck (!s.cur.q.bad)

def execLoop (_ : BitVec 3) (_ : BitVec 9) (_ : BitVec 10) (s : State) :
    Host.Outcome State Fault Refusal :=
  .next (s.guarded [s.loopCheck] (fun s => s))

def execLoopReg (_ : BitVec 3) (j : BitVec 3) (_ : BitVec 10) (s : State) :
    Host.Outcome State Fault Refusal :=
  let n := (s.me.reg (24 + j.toNat)).toNat
  .next (s.guarded [s.shapeCheck (n != 0 && decide (n ≤ 2 ^ 24)), s.loopCheck] (fun s => s))

def execEndl (_ : BitVec 3) (s : State) : Host.Outcome State Fault Refusal :=
  .next (s.guarded [s.loopCheck] (fun s => s))

def execNop (_ : BitVec 3) (s : State) : Host.Outcome State Fault Refusal := .next s

/-- The privilege that a word may not be issued in a handler (R142, R379, R431). -/
def State.noHandler (s : State) : Bool × Nat × W64 := (!s.inHandler, 0x03, 0)

/-- A value that a command has held, let go. -/
def Core.letGo (k : Core) (x : Command) : Core :=
  match x.hold with
  | some (b, n) => k.unholdValue b n
  | none => k

/-- Whether a command is the first repeat of a slot's entry and has not started (R329, R336). -/
def Command.waitsOn (x : Command) (j : Nat) : Bool := x.slot == some j && x.state == .posted && x.rep == 0

/-- A chain slot asked to stop once its current entry retires; an entry that waits never starts
(R329, R336). RUN clears at the performs of the next tc where nothing is under way. -/
def Core.stopChain (k : Core) (tide j : Nat) : Core :=
  let k := (k.cmds.filter (fun x => x.waitsOn j)).foldl Core.letGo k
  { k with
    cmds := k.cmds.filter (fun x => !x.waitsOn j)
    chains := vset k.chains j { vget {} k.chains j with
      stop := if (vget {} k.chains j).run then some tide else none } }

def execHalt (_ : BitVec 3) (s : State) : Host.Outcome State Fault Refusal :=
  .next (s.guarded [s.noHandler, s.loopCheck] (fun s => s.modMe (fun k =>
    { ((List.range 8).foldl (fun k j => k.stopChain s.tide j) (k.coolReuse s.tide)) with
      mode := .halted, haltTide := s.tide })))

/-! ### The universal words -/

def execGate (e : BitVec 3) (_ : BitVec 3) (s : State) : Host.Outcome State Fault Refusal :=
  .next (s.modMe (fun k => k.setQueue e.toNat { k.queue e.toNat with arrived := true }))

def execWait (e : BitVec 3) (_ : BitVec 3) (n : BitVec 20) (s : State) :
    Host.Outcome State Fault Refusal :=
  .next (s.modMe (fun k =>
    k.setQueue e.toNat { k.queue e.toNat with nxt := (k.queue e.toNat).nxt + n.toNat }))

/-- GUARD reads its bit, and the guarded word issues with it (R297). -/
def execGuard (e : BitVec 3) (r : BitVec 5) (b : BitVec 6) (v : BitVec 1) (s : State) :
    Host.Outcome State Fault Refusal :=
  let run := (s.reg r).getLsbD b.toNat != (v == 1)
  .next { s.modMe (fun k => k.setQueue e.toNat { k.queue e.toNat with guard := some run }) with
    now := .issue s.cur.core e.toNat :: s.now }

def execRmode (e : BitVec 3) (_ : BitVec 3) (f : BitVec 1) (m : BitVec 3) (s : State) :
    Host.Outcome State Fault Refusal :=
  .next (s.modMe (fun k =>
    { k with rmodes := vset k.rmodes (rmodeIndex e.toNat) (m.toNat, f == 1) }))

/-- The trap of a word that no instruction defines: precise, with no word of its issue group issued
(R300). -/
def execIllegalWord (core e : Nat) (code : Byte) (info : W64) (s : State) :
    Host.Outcome State Fault Refusal :=
  .next (s.raise core e true code.toNat info s.tide)

/-! ### Gate-class words (R129) -/

/-- A gate-class word in its place: not in a handler (R431), the first of its segment. That its queue's GATE
follows directly is checked at the queue head, before the word issues (`State.shapeFate`). -/
def State.gateChecks (s : State) : List (Bool × Nat × W64) :=
  [s.noHandler, s.shapeCheck s.me.stream.gate.word.isNone]

/-- The class of the segment's gate. -/
def State.setGate (s : State) (c : GateClass) : State :=
  s.modMe (fun k => { k with stream := { k.stream with
    gate := { k.stream.gate with cls := c, word := some s.cur.q.addr, eng := s.cur.eng } } })

end Sys2Proof.Machine
end

