-- ==== Sys2Proof/Machine/Access.lean ====
section
/-!
DEFINITION. Accesses of the L, W and Y engines (R381 to R383, R409, R410): address checks,
translation with its miss (R173, R174), beats, and global requests.
-/

namespace Sys2Proof.Machine

/-! ### A translation miss (R72, R173, R174) -/

/-- Whether a buffer has an entry to replace (R174). -/
def Core.hasRoom (k : Core) : Bool :=
  k.tlb.length < 512 || k.tlb.any (fun e => e.count = 0)

/-- The accesses that a request has outstanding: one for each piece, and that of a value whose data is landing. -/
def GReq.accesses (r : GReq) : Nat :=
  match r.op with
  | .landing .. => 1
  | _ => r.pieces.length

/-- Global accesses and commands outstanding (R174). -/
def Core.outstanding (k : Core) : Nat :=
  (k.reqs.map GReq.accesses).sum + k.cmds.length + k.services.length +
  k.near.countP (fun r => !r.acked && (!r.pages.isEmpty || !r.tlb.isEmpty))

/-- A word that has not issued and stands at its queue's head again: its core issues nothing from the next tc on. A
handler's core, whose gang has stopped, waits by itself (log 14). -/
def State.unissue (s : State) (room : Bool := false) : State :=
  s.modMe (fun k =>
    let k := k.setQueue s.cur.eng s.cur.old
    if k.mode == .handler then { k with stream := { k.stream with wait := some ⟨s.tide, room, none⟩ } }
    else { k with stopAt := some (s.tide + 1) })

/-- A schedule miss of kind 3 that is found at an issue (R174): the gang slips until a count or an
access retires, or takes the trap. -/
def State.bufferMiss (s : State) : State :=
  if wbit s.me.hmode 1 then s.trap 0x06 (missInfo 3 0 s.tide s.me.tbase)
  else if s.inHandler then s.unissue true
  else
    let s := s.unissue.freeze s.cur.core (.walk false)
    match s.me.task with
    | some t => s.modTask t (fun k => { k with
        stop := k.stop.map (fun x => { x with missing := x.missing ++ [.buffer s.cur.core] }) })
    | none => s

/-- A miss of a word that is issuing: the gang stops and the table is walked, or the host is told and
the walk follows its acknowledgement. With no room for the event FINFO has level 7, reason 5 (DESIGN CHOICE, log 63). -/
def State.walkMiss (s : State) (va : Nat) (a : Access) : State :=
  let k := s.me
  let t := s.myTask
  if !k.hasRoom then s.bufferMiss
  else if wbit k.hmode 0 then
    let f := s.func t.vf
    if f.eventRoom then
      let s := (s.event t.vf 0x01 k.vid (w64 va) (t.word 4)).unissue
      (s.modMe (fun k => { k with walk := some (s.cur.eng, va, a, some f.seq.toNat) })).freeze
        s.cur.core (.walk true)
    else (s.event t.vf 0x01 k.vid (w64 va) (t.word 4)).trap 0x0E (transInfo 7 5 va)
  else
    let s := s.unissue.modMe (fun k => { k with walk := some (s.cur.eng, va, a, none) })
    let (d, s) := s.later 1
    (s.freeze s.cur.core (.walk false)).due d (.translationWalkDone s.cur.core) 0

/-- A request that holds translation entries until it has ended (R174). -/
def Core.serve (k : Core) (n : Nat) (ids : List Nat) : Core :=
  { k.holdEntries ids with services := k.services ++ [(n, ids)] }

def Core.endService (k : Core) (n : Nat) : Core :=
  { k.dropEntries ((k.services.filter (fun x => x.1 == n)).flatMap Prod.snd) with
    services := k.services.filter (fun x => x.1 != n) }

/-- Room for `n` more outstanding accesses (R174). -/
def State.withRoom (s : State) (n : Nat) (f : State → State) : State :=
  if 4096 < s.me.outstanding + n then s.bufferMiss else f s

/-- Translation of the bases of a word that is issuing, in their order (R172). -/
def State.translated (s : State) (vas : List (Nat × Access)) (f : List TlbEntry → State → State) :
    State :=
  match vas with
  | [] => f [] s
  | (va, a) :: rest =>
    match s.translate s.cur.core va a with
    | .hit e => s.translated rest (fun es => f (e :: es))
    | .miss => s.walkMiss va a
    | .fault c i => s.trap c i

/-- The accesses of a word that is issuing, each with its translation entry. -/
def State.withEntries (s : State) (vas : List (Nat × Access)) (f : List TlbEntry → State → State) :
    State :=
  s.withRoom vas.length (fun s => s.translated vas f)

/-! ### Rings and the tags of their slots (R134, R162 to R165) -/

/-- Ring configuration (R162): slots, slot bytes, enable, scratchpad base. -/
def Ring.slots (r : Ring) : Nat := wbits r.cfg 47 40 + 1
def Ring.slotBytes (r : Ring) : Nat := (wbits r.cfg 39 30 + 1) * 64
def Ring.enabled (r : Ring) : Bool := wbit r.cfg 16
def Ring.base (r : Ring) : Nat := wbits r.cfg 15 0 * 64
/-- Filled slots: none where waiting consumers have taken CON past PUB (R327). -/
def Ring.filled (r : Ring) : Nat := if (r.pub - r.con).toNat < 2 ^ 31 then (r.pub - r.con).toNat else 0
/-- Free slots; none of a ring that nothing has configured (R165: reset 0). -/
def Ring.free (r : Ring) : Nat := if r.cfg = 0 then 0 else r.slots - (r.rsv - r.rel).toNat
def Ring.bytes (r : Ring) : Nat := r.slots * r.slotBytes

/-- The scratchpad offset of the slot at a position (R162). -/
def Ring.slotAddr (r : Ring) (p : W32) : Nat := r.base + p.toNat % r.slots * r.slotBytes

/-- The tag that the slot at a position carries (R164). -/
def Ring.tagAt (r : Ring) (p : W32) : W16 := Sparse.get 0 r.tags (p.toNat % r.slots)

/-- The published positions of a ring that a consumer has taken and not released (R163). -/
def Ring.taken (r : Ring) : List W32 :=
  ((List.range (Nat.min r.slots (Nat.min (r.con - r.rel).toNat (r.pub - r.rel).toNat))).map (fun i =>
    r.rel + BitVec.ofNat 32 i)).filter (fun p => !r.released.contains p)

/-- FINFO of a tag mismatch (R152). -/
def tagInfo (n : Nat) (p : W32) (tag : W16) : W64 :=
  w64 (n * 2 ^ 32 + p.toNat % 2 ^ 16 * 2 ^ 16 + tag.toNat)

/-- The taken slot that `n` bytes of scratchpad meet and whose tag is not that of its position, as FINFO. -/
def Core.tagClash (k : Core) (off n : Nat) : Option W64 :=
  (List.range 16).findSome? (fun i =>
    let r := k.ring i
    if !r.enabled then none
    else (r.taken.find? (fun p => r.slotAddr p < off + n && off < r.slotAddr p + r.slotBytes
      && r.tagAt p != p.setWidth 16)).map (fun p => tagInfo i p (r.tagAt p)))

/-- The tag check of a read of scratchpad (R134). -/
def Core.slotCheck (k : Core) (off n : Nat) : Bool × Nat × W64 :=
  ((k.tagClash off n).isNone, 0x07, (k.tagClash off n).getD 0)

/-! ### Address checks (R381) -/

/-- The effective address of a word. -/
def State.ea (s : State) (b x : BitVec 5) : W64 := s.reg b + s.reg x

/-- Bytes of a space: global, scratchpad, cohort. -/
def spaceBytes (sp : Nat) : Nat := if sp = 0 then 2 ^ 57 else if sp = 1 then 2 ^ 22 else 2 ^ 23

/-- The address checks of an access of `n` bytes in a space. -/
def Core.addressChecks (k : Core) (sp e n : Nat) (write : Bool) : List (Bool × Nat × W64) :=
  [(decide (e + n ≤ spaceBytes sp), 0x0D, w64 e),
   (aligned e n, 0x16, w64 e),
   (!(sp == 0 && 8 < n && 2 ^ 16 < e % 2 ^ 16 + n), 0x16, w64 e),
   (!(sp == 1 && write && k.touchesHeap e n), 0x0F, protInfo 0 7 e)] ++
  (if sp == 1 && !write then [k.slotCheck e n] else [])

/-! ### Timed accesses (R382) -/

/-- The place of an address in a core's own storage: scratchpad, or the cohort's memory. -/
def placeOf (core sp addr : Nat) : Place :=
  if sp = 2 then .cohort (cohortOf core * 2 ^ 23 + addr) else .scratch addr

/-- A place further on. -/
def Place.plus (p : Place) (n : Nat) : Place :=
  match p with
  | .scratch a => .scratch (a + n)
  | .cohort a => .cohort (a + n)
  | .global a => .global (a + n)

/-- The mark, beside the 32 banks, of a core's cohort access slot (R159). -/
def cohortSlot : Nat := 32

/-- The cohort access of a tide (R159). -/
def State.cohortUse (s : State) (off : Nat) : State := s.post off .use [cohortSlot]

/-- The beats of an access of `n` bytes at a place: `f` gives the operation on the bytes from an
offset, for its length. Reads start at `first` in scratchpad, accesses of cohort memory at 12. -/
def State.beats (s : State) (first : Nat) (p : Place) (n : Nat) (f : Nat → Nat → POp) : State :=
  match p with
  | .scratch a =>
    (List.range ((n + 2047) / 2048)).foldl (fun s b =>
      let len := Nat.min 2048 (n - 2048 * b)
      s.post (first + b) (f (2048 * b) len) (banksOf (a + 2048 * b) len)) s
  | _ =>
    (List.range ((n + 255) / 256)).foldl (fun s b =>
      (s.cohortUse b).post (12 + b) (f (256 * b) (Nat.min 256 (n - 256 * b)))) s

/-- A timed store of bytes. -/
def State.storeBeats (s : State) (p : Place) (bs : List Byte) : State :=
  s.beats 4 p bs.length (fun off len => .store (p.plus off) ((bs.drop off).take len))

/-! ### Global requests (R174, R197, R206) -/

/-- A global access of the word that is issuing, in core order, which holds its translation
entries. -/
def State.request (s : State) (op : GOp) (pieces : List Piece) (entries : List TlbEntry)
    (scope order : Nat := 0) (gate : Bool := false) : State :=
  let (n, s) := s.number
  let (d, s) := s.later 1
  let ids := entries.map TlbEntry.id
  s.modMe (fun k => { k.holdEntries ids with reqs := k.reqs ++ [
    { id := n, issued := s.tide, eng := s.cur.eng, ord := k.ord, op := op, pieces := pieces, scope := scope
      order := order, tlb := ids, ready := d, gate := gate }] })

/-- The one piece of a contiguous access. -/
def pieceOf (e : TlbEntry) (va n : Nat) : List Piece := [⟨va, e.target va, n⟩]

/-- A contiguous global access: translated, marked pending, requested. -/
def State.globalAccess (s : State) (a : Access) (va n : Nat) (op : GOp)
    (mark : Option PendDest := none) (scope order : Nat := 0) : State :=
  s.withEntries [(va, a)] (fun es s =>
    let s := match mark with
      | some d => s.markPending d
      | none => s
    es.foldl (fun s e => s.request op (pieceOf e va n) [e] scope order) s)

/-- The pending mark of a scalar destination; a result for s0 is dropped (R303). -/
def regMark (d : Nat) : Option PendDest := if d = 0 then none else some (.reg d)

end Sys2Proof.Machine
end

