-- ==== Sys2Proof/Machine/Scalar.lean ====
section
/-!
DEFINITION. The arithmetic words of the S engine (R309 to R313). Each reads its registers at issue and
writes d at issue plus its offset; none traps or sets a flag for an arithmetic reason.
-/

namespace Sys2Proof.Machine

/-! ### Results -/

/-- Bits 127:64 of the signed or the natural product (R310). -/
def mulHigh (natural : Bool) (a b : W64) : W64 :=
  if natural then w64 (a.toNat * b.toNat / 2 ^ 64)
  else BitVec.ofInt 64 (a.toInt * b.toInt / ((2 ^ 64 : Nat) : Int))

/-- Quotient or remainder, signed or natural, with the corners of R311. -/
def divide (natural remainder : Bool) (a b : W64) : W64 :=
  if b = 0 then (if remainder then a else BitVec.allOnes 64)
  else if natural then (if remainder then a % b else a / b)
  else if remainder then BitVec.ofInt 64 (a.toInt.tmod b.toInt)
  else BitVec.ofInt 64 (a.toInt.tdiv b.toInt)

def minimum (natural : Bool) (a b : W64) : W64 :=
  if natural then (if a.toNat ≤ b.toNat then a else b) else (if a.toInt ≤ b.toInt then a else b)

def maximum (natural : Bool) (a b : W64) : W64 :=
  if natural then (if a.toNat ≤ b.toNat then b else a) else (if a.toInt ≤ b.toInt then b else a)

/-- Leading zero bits, 0 to 64. -/
def leadingZeros (a : W64) : W64 := w64 (64 - bitLen a.toNat)

/-- Number of 1 bits. -/
def onesCount (a : W64) : W64 := w64 ((List.range 64).countP (fun i => a.getLsbD i))

/-- The comparisons of CMP in the order of their codes (R310). -/
def compares (c : Nat) (a b : W64) : Bool :=
  match c with
  | 0 => a == b
  | 1 => a != b
  | 2 => a.toInt < b.toInt
  | 3 => b.toInt ≤ a.toInt
  | 4 => a.toNat < b.toNat
  | _ => b.toNat ≤ a.toNat

/-- POS and LEN of a bit field (R312). -/
def fieldPos (b : W64) : Nat := wbits b 5 0
def fieldLen (b : W64) : Nat := wbits b 13 8 + 1

/-- The low `n` bits set. -/
def lowMask (n : Nat) : W64 := w64 (2 ^ n - 1)

/-- BFX (R310, R312): field bits above bit 63 read zero. -/
def bitField (signed : Bool) (a b : W64) : W64 :=
  let v := (a >>> fieldPos b) &&& lowMask (fieldLen b)
  if signed && v.getLsbD (fieldLen b - 1) then v ||| ~~~ lowMask (fieldLen b) else v

/-- BFI (R310, R312): field bits above bit 63 are dropped. -/
def insertField (d a b : W64) : W64 :=
  let m := lowMask (fieldLen b) <<< fieldPos b
  (d &&& ~~~ m) ||| ((a <<< fieldPos b) &&& m)

/-- The immediate shift amount of fn 0x10 and 0x11 (R312). -/
def immAmount (b : BitVec 5) (h : BitVec 1) : Nat := b.toNat + 32 * h.toNat

/-- The register shift amount of fn 0x00 (R312). -/
def regAmount (b : W64) : Nat := wbits b 5 0

/-! ### Meanings -/

def execAdd (_ : BitVec 3) (d a b : BitVec 5) (s : State) : Host.Outcome State Fault Refusal :=
  .next (s.scalar d 1 (s.reg a + s.reg b))

def execSub (_ : BitVec 3) (d a b : BitVec 5) (s : State) : Host.Outcome State Fault Refusal :=
  .next (s.scalar d 1 (s.reg a - s.reg b))

def execAddi (_ : BitVec 3) (d a : BitVec 5) (m : BitVec 10) (s : State) :
    Host.Outcome State Fault Refusal :=
  .next (s.scalar d 1 (s.reg a + m.signExtend 64))

def execMul (_ : BitVec 3) (d a b : BitVec 5) (s : State) : Host.Outcome State Fault Refusal :=
  .next (s.scalar d 3 (s.reg a * s.reg b))

def execMulh (_ : BitVec 3) (d a b : BitVec 5) (n : BitVec 1) (s : State) :
    Host.Outcome State Fault Refusal :=
  .next (s.scalar d 3 (mulHigh (n == 1) (s.reg a) (s.reg b)))

def execDiv (_ : BitVec 3) (d a b : BitVec 5) (f : BitVec 2) (s : State) :
    Host.Outcome State Fault Refusal :=
  .next (s.scalar d 34 (divide (2 ≤ f.toNat) (f.toNat % 2 == 1) (s.reg a) (s.reg b)))

def execAnd (_ : BitVec 3) (d a b : BitVec 5) (s : State) : Host.Outcome State Fault Refusal :=
  .next (s.scalar d 1 (s.reg a &&& s.reg b))

def execOr (_ : BitVec 3) (d a b : BitVec 5) (s : State) : Host.Outcome State Fault Refusal :=
  .next (s.scalar d 1 (s.reg a ||| s.reg b))

def execXor (_ : BitVec 3) (d a b : BitVec 5) (s : State) : Host.Outcome State Fault Refusal :=
  .next (s.scalar d 1 (s.reg a ^^^ s.reg b))

def execAndi (_ : BitVec 3) (d a : BitVec 5) (m : BitVec 10) (s : State) :
    Host.Outcome State Fault Refusal :=
  .next (s.scalar d 1 (s.reg a &&& m.signExtend 64))

def execOri (_ : BitVec 3) (d a : BitVec 5) (m : BitVec 10) (s : State) :
    Host.Outcome State Fault Refusal :=
  .next (s.scalar d 1 (s.reg a ||| m.signExtend 64))

def execXori (_ : BitVec 3) (d a : BitVec 5) (m : BitVec 10) (s : State) :
    Host.Outcome State Fault Refusal :=
  .next (s.scalar d 1 (s.reg a ^^^ m.signExtend 64))

def execShl (_ : BitVec 3) (d a b : BitVec 5) (s : State) : Host.Outcome State Fault Refusal :=
  .next (s.scalar d 1 (s.reg a <<< regAmount (s.reg b)))

def execShlImm (_ : BitVec 3) (d a b : BitVec 5) (h : BitVec 1) (s : State) :
    Host.Outcome State Fault Refusal :=
  .next (s.scalar d 1 (s.reg a <<< immAmount b h))

def execShr (_ : BitVec 3) (d a b : BitVec 5) (s : State) : Host.Outcome State Fault Refusal :=
  .next (s.scalar d 1 (s.reg a >>> regAmount (s.reg b)))

def execShrImm (_ : BitVec 3) (d a b : BitVec 5) (h : BitVec 1) (s : State) :
    Host.Outcome State Fault Refusal :=
  .next (s.scalar d 1 (s.reg a >>> immAmount b h))

def execSar (_ : BitVec 3) (d a b : BitVec 5) (s : State) : Host.Outcome State Fault Refusal :=
  .next (s.scalar d 1 ((s.reg a).sshiftRight (regAmount (s.reg b))))

def execSarImm (_ : BitVec 3) (d a b : BitVec 5) (h : BitVec 1) (s : State) :
    Host.Outcome State Fault Refusal :=
  .next (s.scalar d 1 ((s.reg a).sshiftRight (immAmount b h)))

def execMin (_ : BitVec 3) (d a b : BitVec 5) (n : BitVec 1) (s : State) :
    Host.Outcome State Fault Refusal :=
  .next (s.scalar d 1 (minimum (n == 1) (s.reg a) (s.reg b)))

def execMax (_ : BitVec 3) (d a b : BitVec 5) (n : BitVec 1) (s : State) :
    Host.Outcome State Fault Refusal :=
  .next (s.scalar d 1 (maximum (n == 1) (s.reg a) (s.reg b)))

def execClz (_ : BitVec 3) (d a : BitVec 5) (s : State) : Host.Outcome State Fault Refusal :=
  .next (s.scalar d 1 (leadingZeros (s.reg a)))

def execPopc (_ : BitVec 3) (d a : BitVec 5) (s : State) : Host.Outcome State Fault Refusal :=
  .next (s.scalar d 1 (onesCount (s.reg a)))

def execCmp (_ : BitVec 3) (d a b c : BitVec 5) (s : State) : Host.Outcome State Fault Refusal :=
  .next (s.scalar d 1 (if compares c.toNat (s.reg a) (s.reg b) then 1 else 0))

def execSel (_ : BitVec 3) (d a b c : BitVec 5) (s : State) : Host.Outcome State Fault Refusal :=
  .next (s.scalar d 1 (if s.reg c ≠ 0 then s.reg a else s.reg b))

def execLi (_ : BitVec 3) (d : BitVec 5) (m : BitVec 15) (s : State) :
    Host.Outcome State Fault Refusal :=
  .next (s.scalar d 1 (m.signExtend 64))

def execLsi (_ : BitVec 3) (d : BitVec 5) (m : BitVec 15) (s : State) :
    Host.Outcome State Fault Refusal :=
  .next (s.scalar d 1 ((s.reg d <<< 15) ||| m.setWidth 64))

def execSpt (_ : BitVec 3) (d a : BitVec 5) (s : State) : Host.Outcome State Fault Refusal :=
  .next (s.scalar d 1 (w64 (spaceClass s.me (s.reg a))))

def execSpc (_ : BitVec 3) (d a : BitVec 5) (f : BitVec 1) (s : State) :
    Host.Outcome State Fault Refusal :=
  .next (s.scalar d 1
    (if f = 0 then toScratchForm s.me (s.reg a) else toPrivateForm s.me (s.reg a)))

def execBfx (_ : BitVec 3) (d a b : BitVec 5) (f : BitVec 1) (s : State) :
    Host.Outcome State Fault Refusal :=
  .next (s.scalar d 1 (bitField (f == 1) (s.reg a) (s.reg b)))

def execBfi (_ : BitVec 3) (d a b : BitVec 5) (s : State) : Host.Outcome State Fault Refusal :=
  .next (s.scalar d 1 (insertField (s.reg d) (s.reg a) (s.reg b)))

end Sys2Proof.Machine
end

