-- ==== Sys2Proof/Machine/TileOps.lean ====
section
/-!
DEFINITION. The words of the T engine (R342 to R347) with the count operations of R183 to R186.
-/

namespace Sys2Proof.Machine

/-! ### Tiles (R343 to R345) -/

/-- The check of an absent tile alone, for the words that may name an unconfigured one (R343). -/
def Core.absentCheck (k : Core) (n : Nat) : Bool × Nat × W64 :=
  (!((k.tile n).a && k.mode != .handler), 0x08, w64 (n + 16))

/-- A shape that R338 refuses for a tile (R341 kind 1). -/
def Core.shapeCheck (k : Core) (ok : Bool) (n : Nat) (w : W32) : Bool × Nat × W64 :=
  typeCheck ok 1 n (k.tile n) w.toNat

def execTcfg (_ : BitVec 3) (x : BitVec 4) (y : BitVec 5) (s : State) :
    Host.Outcome State Fault Refusal :=
  let w : W32 := (s.reg y).setWidth 32
  .next (s.guarded [s.me.absentCheck x.toNat, s.me.shapeCheck (shapeOk w) x.toNat w] (fun s =>
    s.exposing (fun s => s.post 1 (.tileCfg x.toNat w false 0))))

def execTzero (_ : BitVec 3) (x : BitVec 4) (s : State) : Host.Outcome State Fault Refusal :=
  .next (s.guarded (s.me.tileChecks x.toNat) (fun s =>
    s.exposing (fun s => s.post 1 (.tileZero x.toNat))))

/-- The checks of a row move: equal TYPE and COLS, and row indices in range (R344). -/
def Core.moveChecks (k : Core) (x y : BitVec 4) (rd rs : Nat) : List (Bool × Nat × W64) :=
  let tx := k.tile x.toNat
  let ty := k.tile y.toNat
  k.tileChecks x.toNat ++ k.tileChecks y.toNat ++
  [typeCheck (tx.ty == ty.ty) 0 x.toNat tx, typeCheck (tx.cols == ty.cols) 3 x.toNat tx,
   typeCheck (decide (rd < tx.rows)) 2 x.toNat tx rd, typeCheck (decide (rs < ty.rows)) 2 y.toNat ty rs]

/-- The row move of TRMOV, from row rs to row rd at issue + 2. -/
def State.moveRow (s : State) (x y : BitVec 4) (rd rs : Nat) (inc : List (Bool × Nat)) : State :=
  let tx := s.me.tile x.toNat
  let ty := s.me.tile y.toNat
  let scales := ty.rowScale rs
  s.guarded (s.me.moveChecks x y rd rs) (fun s => s.exposing (fun s =>
    (s.post 2 (.tileWrite x.toNat [(rd * rowBytes tx.shape, ty.rowData rs)]
      (if scales = [] then [] else [(rd * rowScales tx.shape, scales)]) 0)).advance (bumped inc) 1))

def execTrmov (_ : BitVec 3) (x y : BitVec 4) (q p : BitVec 1) (s : State) :
    Host.Outcome State Fault Refusal :=
  .next (s.moveRow x y (s.me.tile x.toNat).cur (s.me.tile y.toNat).cur
    [(p == 1, x.toNat), (q == 1, y.toNat)])

def execTrmovRows (_ : BitVec 3) (x y : BitVec 4) (z : BitVec 5) (s : State) :
    Host.Outcome State Fault Refusal :=
  .next (s.moveRow x y (wbits (s.reg z) 6 0) (wbits (s.reg z) 14 8) [])

def execTcmov (_ : BitVec 3) (x y : BitVec 4) (z : BitVec 5) (s : State) :
    Host.Outcome State Fault Refusal :=
  let tx := s.me.tile x.toNat
  let ty := s.me.tile y.toNat
  let cd := wbits (s.reg z) 6 0
  let cs := wbits (s.reg z) 14 8
  let es := elemBits tx.ty / 8
  let cells := (List.range tx.rows).map (fun r =>
    ((r * tx.cols + cd) * es, ty.data.read ((r * ty.cols + cs) * es) es))
  .next (s.guarded (s.me.tileChecks x.toNat ++ s.me.tileChecks y.toNat ++
      [typeCheck (tx.ty == ty.ty) 0 x.toNat tx, typeCheck (tx.rows == ty.rows) 3 x.toNat tx,
       typeCheck (!isK tx.ty) 4 x.toNat tx, typeCheck (decide (cd < tx.cols)) 2 x.toNat tx cd,
       typeCheck (decide (cs < ty.cols)) 2 y.toNat ty cs]) (fun s => s.exposing (fun s =>
    s.post 4 (.tileWrite x.toNat cells [] 0))))

/-- The bytes of a transposed tile (R345). -/
def transposed (t : Tile) : List Byte :=
  let es := elemBits t.ty / 8
  let whole := chunksOf (t.cols * es) t.rows (t.data.read 0 (elemBytes t.shape))
  (List.range t.cols).flatMap (fun c => whole.flatMap (fun row => (row.drop (c * es)).take es))

def execTtr (_ : BitVec 3) (x y : BitVec 4) (s : State) : Host.Outcome State Fault Refusal :=
  let tx := s.me.tile x.toNat
  let ty := s.me.tile y.toNat
  .next (s.guarded (s.me.tileChecks x.toNat ++ s.me.tileChecks y.toNat ++
      [typeCheck (tx.ty == ty.ty) 0 x.toNat tx,
       typeCheck (tx.rows == ty.cols && tx.cols == ty.rows) 3 x.toNat tx,
       typeCheck (!isK ty.ty) 4 y.toNat ty]) (fun s =>
    s.exposing (fun s =>
      s.post (2 + Nat.max ty.rows ty.cols) (.tileWrite x.toNat [(0, transposed ty)] [] 0))))

/-! ### Values and tiles (R346) -/

/-- The privilege of a word that makes a value or changes a count: no handler (R190), and no epilogue
of a pre-emptible kernel (R117). -/
def State.countPrivilege (s : State) : Bool × Nat × W64 := (!s.inHandler && !s.inEpilogue, 0x03, 0)

/-- Lines of a transfer: `f i` posted for each of them. -/
def State.eachLine (s : State) (n : Nat) (f : Nat → State → State) : State :=
  (List.range n).foldl (fun s i => f i s) s

def execTldv (_ : BitVec 3) (x : BitVec 4) (y : BitVec 5) (s : State) :
    Host.Outcome State Fault Refusal :=
  let h := s.reg y
  .next (s.guarded [s.me.absentCheck x.toNat] (fun s => s.checked (s.me.resolve h) (fun b s =>
    let w := (s.me.block b).shape
    let src := s.me.blockAddr b
    s.guarded [s.me.shapeCheck (shapeOk w) x.toNat w] (fun s => s.exposing (fun s =>
      (s.post 1 (.tileCfg x.toNat w true 0)).eachLine (lineCount (imageBytes w)) (fun i s =>
        s.post (2 + i) (.lineToTile (src + 64 * i) h x.toNat (elemBytes w) (imageBytes w) (64 * i))
          (banksOf (src + 64 * i) 64)))))))

/-- Tile lines copied to a value's storage (R346). -/
def State.copyTile (s : State) (t : Nat) (w : W32) (dst : Nat) : State :=
  s.eachLine (lineCount (imageBytes w)) (fun i s =>
    s.post (2 + i) (.tileToLine t (elemBytes w) (imageBytes w) (64 * i) (dst + 64 * i)))

def execTmkv (_ : BitVec 3) (x : BitVec 5) (y : BitVec 4) (s : State) :
    Host.Outcome State Fault Refusal :=
  let w := (s.me.tile y.toNat).shape
  .next (s.writing x (fun s => s.guarded (s.countPrivilege :: s.me.tileChecks y.toNat) (fun s =>
    s.exposing (fun s =>
      s.checked (s.me.produce ((imageBytes w + 4095) / 4096) w s.tide) (fun r s =>
        ((s.modMe (fun _ => r.2)).post 1 (.reg x.toNat (r.2.handleOf r.1))).copyTile y.toNat w
          (r.2.blockAddr r.1))))))

/-! ### Counts (R184, R347) -/

/-- A value's lines copied to other storage with bytes of the value replaced (R185). -/
def State.copyValue (s : State) (h : W64) (src dst bytes : Nat) (patch : List (Nat × Byte)) : State :=
  s.eachLine (lineCount bytes) (fun i s =>
    s.post (2 + i) (.lineRead (src + 64 * i) (some h) (dst + 64 * i)
      ((patch.filter (fun p => p.1 / 64 == i)).map (fun p => (p.1 % 64, p.2))))
      (banksOf (src + 64 * i) 64))

/-- A copy of a value in new storage, its handle written to x; `keep` is what becomes of the operand's
count, and `f` what the word does besides. -/
def State.copyOut (s : State) (x : BitVec 5) (h : W64) (b : Nat) (keep : Core → Core)
    (patch : List (Nat × Byte)) (f : State → State) : State :=
  let v := s.me.block b
  s.checked (s.me.allocate (v.len + 1) v.shape) (fun r s =>
    f (((s.modMe (fun _ => keep r.2)).post 1 (.reg x.toNat (r.2.handleOf r.1))).copyValue h
      (r.2.blockAddr b) (r.2.blockAddr r.1) (imageBytes v.shape) patch))

/-- A value's count lowered by one. -/
def Core.lower (k : Core) (b : Nat) : Core :=
  k.setBlock b { k.block b with count := (k.block b).count - 1 }

def execDup (_ : BitVec 3) (x y : BitVec 5) (s : State) : Host.Outcome State Fault Refusal :=
  let h := s.reg y
  .next (s.writing x (fun s => s.guarded [s.countPrivilege] (fun s =>
    s.checked (s.me.resolveLive h) (fun b s => s.exposing (fun s =>
      let v := s.me.block b
      if v.count < 32767 then
        (s.modMe (fun k => k.setBlock b { v with count := v.count + 1 })).post 1 (.reg x.toNat h)
      else s.copyOut x h b (fun k => k) [] (fun s => s))))))

def execDrop (_ : BitVec 3) (y : BitVec 5) (s : State) : Host.Outcome State Fault Refusal :=
  .next (s.guarded [s.countPrivilege] (fun s => s.checked (s.me.resolveLive (s.reg y)) (fun b s =>
    s.modMe (fun k =>
      if 1 < (k.block b).count then k.lower b
      else k.makeCooling b ((k.block b).len + 1) (s.tide + reclaimHorizon)))))

def execReuse (_ : BitVec 3) (y : BitVec 5) (s : State) : Host.Outcome State Fault Refusal :=
  .next (s.guarded [s.countPrivilege] (fun s => s.checked (s.me.resolveLive (s.reg y)) (fun b s =>
    let v := s.me.block b
    if v.count ≤ 1 then
      s.modMe (fun k =>
        ((k.coolReuse s.tide).setBlock b { v with tag := v.tag + 1 }).makeReuse b (v.len + 1))
    else
      s.checked (s.me.allocate (v.len + 1) v.shape) (fun r s =>
        s.modMe (fun _ => ((r.2.lower b).coolReuse s.tide).makeReuse r.1 (v.len + 1))))))

/-- The pieces of an in-place write, one for each line that it touches, in ascending order (R185). -/
def linePieces (off : Nat) (bs : List Byte) : List (Nat × List Byte) :=
  (List.range ((off % 64 + bs.length + 63) / 64)).map (fun i =>
    let lo := Nat.max off (off / 64 * 64 + 64 * i)
    let hi := Nat.min (off + bs.length) (off / 64 * 64 + 64 * (i + 1))
    (lo, (bs.drop (lo - off)).take (hi - lo)))

/-- An update (R184, R185): in place at count 1, else a copy with the bytes changed. `pieces` are the
changed bytes at offsets in the value, and `f` is what the word does besides where it does not trap. -/
def State.update (s : State) (x : BitVec 5) (h : W64) (b : Nat) (pieces : List (Nat × List Byte))
    (f : State → State) : State :=
  let base := s.me.blockAddr b
  if (s.me.block b).count ≤ 1 then
    f ((pieces.flatMap (fun p => linePieces p.1 p.2)).zipIdx.foldl (fun s p =>
      s.post (2 + p.2) (.store (.scratch (base + p.1.1)) p.1.2) (banksOf (base + p.1.1) p.1.2.length))
      (s.post 1 (.reg x.toNat h)))
  else
    s.copyOut x h b (fun k => k.lower b)
      (pieces.flatMap (fun p => p.2.zipIdx.map (fun e => (p.1 + e.2, e.1)))) f

def execUpd (_ : BitVec 3) (x y z : BitVec 5) (s : State) : Host.Outcome State Fault Refusal :=
  let h := s.reg y
  let e := (s.reg x).toNat
  .next (s.writing x (fun s => s.guarded [s.countPrivilege] (fun s =>
    s.checked (s.me.resolveLive h) (fun b s =>
      let w := (s.me.block b).shape
      let es := elemBits (shapeType w) / 8
      s.guarded
        [(!isK (shapeType w), 0x09, typeInfo 4 0 (shapeType w) 0),
         (decide (e < shapeCount w), 0x09, typeInfo 2 0 (shapeType w) e)] (fun s =>
        s.exposing (fun s => s.update x h b [(e * es, bytesOfNat es (s.reg z).toNat)] (fun s => s)))))))

def execUpdr (_ : BitVec 3) (x y : BitVec 5) (z : BitVec 4) (f : BitVec 1) (s : State) :
    Host.Outcome State Fault Refusal :=
  let h := s.reg y
  let r := (s.reg x).toNat
  let t := s.me.tile z.toNat
  .next (s.writing x (fun s => s.guarded [s.countPrivilege] (fun s =>
    s.checked (s.me.resolveLive h) (fun b s =>
      let w := (s.me.block b).shape
      let scales := t.rowScale t.cur
      s.guarded (s.me.tileChecks z.toNat ++
          [typeCheck (t.ty == shapeType w) 0 z.toNat t, typeCheck (t.cols == shapeCols w) 3 z.toNat t,
           typeCheck (decide (r < shapeRows w)) 2 z.toNat t r]) (fun s =>
        s.exposing (fun s =>
          s.update x h b ((r * rowBytes w, t.rowData t.cur) ::
            (if scales = [] then [] else [(elemBytes w + r * rowScales w, scales)]))
            (fun s => s.advance (bumped [(f == 1, z.toNat)]) 1)))))))

def execCnt (_ : BitVec 3) (x y : BitVec 5) (s : State) : Host.Outcome State Fault Refusal :=
  .next (s.writing x (fun s => s.checked (s.me.resolve (s.reg y)) (fun b s => s.exposing (fun s =>
    s.post 1 (.reg x.toNat (w64
      (if (s.me.block b).state == .live then (s.me.block b).count else 0)))))))

end Sys2Proof.Machine
end

