-- ==== Sys2Proof/Machine/Vector.lean ====
section
/-!
DEFINITION. The words of the V engine (R348 to R360). Each reads the cursor rows of its tiles and its
broadcast scalar at issue and writes the cursor row of d at issue plus its offset.
-/

namespace Sys2Proof.Machine

/-! ### Operands -/

/-- The b operand of a V word: none, a tile, or a scalar broadcast to every lane (R348). -/
inductive VOperand where
  | none
  | tile (n : Nat)
  | scalar (v : W64)
  deriving DecidableEq, Repr

/-- The b operand that bsel chooses (R288). -/
def State.vOperand (s : State) (b : BitVec 5) (bsel : BitVec 1) : VOperand :=
  if bsel = 1 then .scalar (s.reg b) else .tile (b.toNat % 16)

/-- The tiles of a V word in operand order. -/
def vTiles (d a : BitVec 4) (b : VOperand) : List Nat :=
  match b with
  | .tile n => [d.toNat, a.toNat, n]
  | _ => [d.toNat, a.toNat]

/-- A tile row at its cursor, as elements. -/
def Core.cursorRow (k : Core) (n : Nat) : List Nat := (k.tile n).row (k.tile n).cur

/-- The elements of the b operand for `n` lanes of type `ty` (R348). -/
def Core.bRow (k : Core) (b : VOperand) (ty n : Nat) : List Nat :=
  match b with
  | .none => List.replicate n 0
  | .tile t => k.cursorRow t
  | .scalar v => List.replicate n (v.toNat % 2 ^ elemBits ty)

/-- The checks of R349 on tiles of one TYPE and column count and one class, in the order of R341: presence first, then
the operands in their order, each in its class, TYPE and column count (DESIGN CHOICE, log 67). -/
def Core.vChecks (k : Core) (cls : Nat → Bool) (ts : List Nat) : List (Bool × Nat × W64) :=
  let first := k.tile (ts.headD 0)
  ts.flatMap k.tileChecks ++
  ts.flatMap (fun n =>
    [typeCheck (cls (k.tile n).ty) 4 n (k.tile n), typeCheck ((k.tile n).ty == first.ty) 0 n (k.tile n),
     typeCheck ((k.tile n).cols == first.cols) 3 n (k.tile n)])

/-- Classes of R349. -/
def clsF (t : Nat) : Bool := isF t
def clsI (t : Nat) : Bool := isI t
def clsFI (t : Nat) : Bool := isF t || isI t
def clsFIP (t : Nat) : Bool := isF t || isI t || isP t

/-! ### Results -/

/-- The rounding of lane i of row `r` of a tile (R273). -/
def laneRounding (c : RoundCtx) (t : Tile) (r i : Nat) : Rounding := c.at (r * t.cols + i)

/-- A row write: the elements and, for a K tile, the scales, at the byte offsets of the tile's shape
at issue (R361). -/
def rowWrite (n : Nat) (t : Tile) (r : Nat) (xs : List Nat) (scales : List Byte) (fl : Flags) : POp :=
  .tileWrite n [(r * rowBytes t.shape, packElems (elemBits t.ty) xs)]
    (if scales = [] then [] else [(r * rowScales t.shape, scales)]) fl

/-- The flags of lanes together. -/
def flagsOf (xs : List (WithFlags Nat)) : Flags := xs.foldl (fun f x => f ||| x.2) 0

/-- The cursor row of d written at an offset, and the post-increments (R340). -/
def State.vResult (s : State) (off : Nat) (d : BitVec 4) (xs : List (WithFlags Nat))
    (scales : List Byte) (inc : List (Bool × Nat)) : State :=
  let t := s.me.tile d.toNat
  (s.post off (rowWrite d.toNat t t.cur (xs.map Prod.fst) scales (flagsOf xs))).advance
    (bumped inc) 1

/-- A lanewise word: `f` takes a lane's type, rounding and the elements of a, b and d. -/
def State.lanewise (s : State) (cls : Nat → Bool) (off : Nat) (d a : BitVec 4) (b : VOperand)
    (inc : List (Bool × Nat)) (f : Nat → Rounding → Nat → Nat → Nat → WithFlags Nat) : State :=
  let k := s.me
  let t := k.tile d.toNat
  let xs := (List.range t.cols).map (fun i =>
    f t.ty (laneRounding (k.rounding 1) t t.cur i) ((k.cursorRow a.toNat).getD i 0)
      ((k.bRow b t.ty t.cols).getD i 0) ((k.cursorRow d.toNat).getD i 0))
  s.guarded (k.vChecks cls (vTiles d a b)) (fun s => s.exposing (fun s => s.vResult off d xs [] inc))

/-- The post-increments of a word with three tile operands (R288). -/
def incs (d a : BitVec 4) (b : BitVec 5) (p q r : BitVec 1) : List (Bool × Nat) :=
  [(p == 1, d.toNat), (q == 1, a.toNat), (r == 1, b.toNat % 16)]

/-- The post-increments of a word with two. -/
def incs2 (d a : BitVec 4) (p q : BitVec 1) : List (Bool × Nat) :=
  [(p == 1, d.toNat), (q == 1, a.toNat)]

/-- The classes of a word whose saturating form takes only integers (R350). -/
def satClass (f : BitVec 1) : Nat → Bool := if f = 1 then clsI else clsFI

/-- An integer lane (R266, R352) or a floating-point lane rounded once (R351). -/
def arith (sat : Bool) (onInt : Int → Int → Int → Int) (onNum : Num → Num → Num → WithFlags Num)
    (ty : Nat) (r : Rounding) (a b d : Nat) : WithFlags Nat :=
  if isI ty then fitInt ty sat (onInt (intOf ty a) (intOf ty b) (intOf ty d))
  else roundWith ty r (onNum (valueOf ty a) (valueOf ty b) (valueOf ty d))

/-- Minimum or maximum of two elements (R261): a NaN gives the canonical NaN. -/
def pick (biggest : Bool) (ty a b : Nat) : Nat :=
  if isI ty then
    if biggest then (if intOf ty a < intOf ty b then b else a)
    else (if intOf ty b < intOf ty a then b else a)
  else
    let x := valueOf ty a
    let y := valueOf ty b
    if x.isNaN || y.isNaN then canonNaN ty
    else if biggest then (if x.before y then b else a)
    else (if y.before x then b else a)

/-- Absolute value or negation of an element (R351, R352). -/
def signOp (negate sat : Bool) (ty a : Nat) : WithFlags Nat :=
  if isI ty then
    let v := intOf ty a
    fitInt ty sat (if negate then -v else if v < 0 then -v else v)
  else if (valueOf ty a).isNaN then (canonNaN ty, 0)
  else
    let sb := 2 ^ (elemBits ty - 1)
    (if negate then (if a / sb % 2 = 1 then a - sb else a + sb) else a % sb, 0)

/-- Shifts of an integer element by b bits 5:0 (R350, R352). -/
def shiftLeft (ty a b : Nat) : Nat := a * 2 ^ (b % 64) % 2 ^ elemBits ty
def shiftRight (arithmetic : Bool) (ty a b : Nat) : Nat :=
  if arithmetic then
    bitsOfInt (elemBits ty) (signedOf (elemBits ty) a / ((2 ^ (b % 64) : Nat) : Int))
  else a / 2 ^ (b % 64)

/-- The comparisons of VCMP in the order of their codes (R350, R358). -/
def vCompare (cc ty a b : Nat) : Bool :=
  let x := valueOf ty a
  let y := valueOf ty b
  match cc with
  | 0 => x.eqv y
  | 1 => !x.eqv y
  | 2 => x.lt y
  | 3 => x.lt y || x.eqv y
  | 4 => y.lt x
  | _ => y.lt x || x.eqv y

/-- A reduction of elements (R354): add 0, max 1, min 2, and 3, or 4, xor 5. -/
def reduce (op ty : Nat) (r : Rounding) (xs : List Nat) : WithFlags Nat :=
  match op with
  | 0 =>
    if isI ty then fitInt ty false (xs.foldl (fun v x => v + intOf ty x) 0)
    else roundWith ty r (sumExact (xs.map (valueOf ty)))
  | 1 => ((xs.drop 1).foldl (pick true ty) (pick true ty (xs.headD 0) (xs.headD 0)), 0)
  | 2 => ((xs.drop 1).foldl (pick false ty) (pick false ty (xs.headD 0) (xs.headD 0)), 0)
  | 3 => ((xs.drop 1).foldl Nat.land (xs.headD 0), 0)
  | 4 => (xs.foldl Nat.lor 0, 0)
  | _ => (xs.foldl Nat.xor 0, 0)

/-- Whether a key comes strictly before another in ascending order (R355). -/
def keyBefore (ty a b : Nat) : Bool :=
  if isI ty then intOf ty a < intOf ty b else (valueOf ty a).before (valueOf ty b)

/-- A key with its column put into a sorted list behind the keys equal to it (R355). -/
def insertKey (before : Nat → Nat → Bool) (x : Nat × Nat) : List (Nat × Nat) → List (Nat × Nat)
  | [] => [x]
  | y :: ys => if before x.1 y.1 then x :: y :: ys else y :: insertKey before x ys

/-- A stable sort of keys with their columns (R355). -/
def sortKeys (before : Nat → Nat → Bool) (xs : List (Nat × Nat)) : List (Nat × Nat) :=
  xs.foldl (fun acc x => insertKey before x acc) []

/-- Runs of equal keys: the key and the columns of each (R356). -/
def keyRuns : List (Nat × Nat) → List (Nat × List Nat)
  | [] => []
  | (k, i) :: rest =>
    match keyRuns rest with
    | (j, is) :: rs => if j = k then (k, i :: is) :: rs else (k, [i]) :: (j, is) :: rs
    | [] => [(k, [i])]

/-- The fill value of VSEGR (R356). -/
def segFill (fn ty : Nat) : Nat :=
  match fn with
  | 0 => 0
  | 3 => 2 ^ elemBits ty - 1
  | n =>
    if isI ty then bitsOfInt (elemBits ty) (if n = 1 then intMin ty else intMax ty)
    else (fmtOf ty).infBits + (if n = 1 then (fmtOf ty).signBit else 0)

/-- The exact values of a row for a conversion: K rows decode with their scales, and a stray OX4 code
raises invalid (R263 to R265, R359). -/
def decodeRow (ty : Nat) (xs : List Nat) (scales : List Byte) : List Num × Flags :=
  if ty = tMXFP8 then
    (xs.zipIdx.map (fun (x, i) => mxValue (scales.getD (i / 32) 0).toNat x), 0)
  else if ty = tOX4 then
    let (ns, stray) := ox4Groups xs
    (ns.zipIdx.map (fun (x, i) =>
      let sc := (scales.getD (i / 32) 0).toNat
      if sc = 255 then .nan else x.scale ((sc : Int) - 127)), if stray then flagInvalid else 0)
  else (xs.map (valueOf ty), 0)

/-- Quantisation of a row to a K type, block by block (R277): elements, scales, flags. -/
def quantRow (ty : Nat) (rs : Nat → Rounding) (xs : List Num) : List Nat × List Byte × Flags :=
  let one (b : Nat) (ys : List Num) : Nat × List Nat × Flags :=
    if ty = tMXFP8 then quantMx (fun i => rs (32 * b + i)) ys
    else quantOx4 (fun i => rs (32 * b + i)) ys
  let bs := (chunksOf 32 (xs.length / 32) xs).zipIdx.map (fun (ys, b) => one b ys)
  (bs.flatMap (fun b => b.2.1), bs.map (fun b => BitVec.ofNat 8 b.1),
    bs.foldl (fun f b => f ||| b.2.2) 0)

/-! ### Lanewise words (R350 to R352, R358) -/

def execVadd (_ : BitVec 3) (d a : BitVec 4) (b : BitVec 5) (e p q r f : BitVec 1) (s : State) :
    Host.Outcome State Fault Refusal :=
  .next (s.lanewise (satClass f) 2 d a (s.vOperand b e) (incs d a b p q r)
    (arith (f == 1) (fun x y _ => x + y) (fun x y _ => sumExact [x, y])))

def execVsub (_ : BitVec 3) (d a : BitVec 4) (b : BitVec 5) (e p q r f : BitVec 1) (s : State) :
    Host.Outcome State Fault Refusal :=
  .next (s.lanewise (satClass f) 2 d a (s.vOperand b e) (incs d a b p q r)
    (arith (f == 1) (fun x y _ => x - y) (fun x y _ => sumExact [x, y.neg])))

def execVmul (_ : BitVec 3) (d a : BitVec 4) (b : BitVec 5) (e p q r f : BitVec 1) (s : State) :
    Host.Outcome State Fault Refusal :=
  .next (s.lanewise (satClass f) 4 d a (s.vOperand b e) (incs d a b p q r)
    (arith (f == 1) (fun x y _ => x * y) (fun x y _ => mulExact x y)))

/-- The three forms of VFMA: a × b + d, a × b − d, d − a × b. -/
def fmaInt (f : Nat) (x y z : Int) : Int :=
  match f with
  | 0 => x * y + z
  | 1 => x * y - z
  | _ => z - x * y
def fmaNum (f : Nat) (x y z : Num) : WithFlags Num :=
  match f with
  | 0 => fmaExact x y z
  | 1 => fmaExact x y z.neg
  | _ => fmaExact x.neg y z

def execVfma (_ : BitVec 3) (d a : BitVec 4) (b : BitVec 5) (e p q r : BitVec 1) (f : BitVec 2)
    (s : State) : Host.Outcome State Fault Refusal :=
  .next (s.lanewise clsFI 4 d a (s.vOperand b e) (incs d a b p q r)
    (arith false (fmaInt f.toNat) (fmaNum f.toNat)))

def execVmax (_ : BitVec 3) (d a : BitVec 4) (b : BitVec 5) (e p q r : BitVec 1) (s : State) :
    Host.Outcome State Fault Refusal :=
  .next (s.lanewise clsFI 2 d a (s.vOperand b e) (incs d a b p q r)
    (fun ty _ x y _ => (pick true ty x y, 0)))

def execVmin (_ : BitVec 3) (d a : BitVec 4) (b : BitVec 5) (e p q r : BitVec 1) (s : State) :
    Host.Outcome State Fault Refusal :=
  .next (s.lanewise clsFI 2 d a (s.vOperand b e) (incs d a b p q r)
    (fun ty _ x y _ => (pick false ty x y, 0)))

def execVabs (_ : BitVec 3) (d a : BitVec 4) (p q f : BitVec 1) (s : State) :
    Host.Outcome State Fault Refusal :=
  .next (s.lanewise (satClass f) 2 d a .none (incs2 d a p q)
    (fun ty _ x _ _ => signOp false (f == 1) ty x))

def execVneg (_ : BitVec 3) (d a : BitVec 4) (p q f : BitVec 1) (s : State) :
    Host.Outcome State Fault Refusal :=
  .next (s.lanewise (satClass f) 2 d a .none (incs2 d a p q)
    (fun ty _ x _ _ => signOp true (f == 1) ty x))

def execVand (_ : BitVec 3) (d a : BitVec 4) (b : BitVec 5) (e p q r : BitVec 1) (s : State) :
    Host.Outcome State Fault Refusal :=
  .next (s.lanewise clsFIP 2 d a (s.vOperand b e) (incs d a b p q r)
    (fun _ _ x y _ => (Nat.land x y, 0)))

def execVor (_ : BitVec 3) (d a : BitVec 4) (b : BitVec 5) (e p q r : BitVec 1) (s : State) :
    Host.Outcome State Fault Refusal :=
  .next (s.lanewise clsFIP 2 d a (s.vOperand b e) (incs d a b p q r)
    (fun _ _ x y _ => (Nat.lor x y, 0)))

def execVxor (_ : BitVec 3) (d a : BitVec 4) (b : BitVec 5) (e p q r : BitVec 1) (s : State) :
    Host.Outcome State Fault Refusal :=
  .next (s.lanewise clsFIP 2 d a (s.vOperand b e) (incs d a b p q r)
    (fun _ _ x y _ => (Nat.xor x y, 0)))

def execVshl (_ : BitVec 3) (d a : BitVec 4) (b : BitVec 5) (e p q r : BitVec 1) (s : State) :
    Host.Outcome State Fault Refusal :=
  .next (s.lanewise clsI 2 d a (s.vOperand b e) (incs d a b p q r)
    (fun ty _ x y _ => (shiftLeft ty x y, 0)))

def execVshr (_ : BitVec 3) (d a : BitVec 4) (b : BitVec 5) (e p q r f : BitVec 1) (s : State) :
    Host.Outcome State Fault Refusal :=
  .next (s.lanewise clsI 2 d a (s.vOperand b e) (incs d a b p q r)
    (fun ty _ x y _ => (shiftRight (f == 1) ty x y, 0)))

def execVsel (_ : BitVec 3) (d a : BitVec 4) (b : BitVec 5) (e p q r : BitVec 1) (s : State) :
    Host.Outcome State Fault Refusal :=
  .next (s.lanewise clsFIP 2 d a (s.vOperand b e) (incs d a b p q r)
    (fun _ _ x y z => (if z ≠ 0 then x else y, 0)))

/-- The checks of VCMP: d of class I with a's column count, a and a tile b alike (R358). -/
def Core.vcmpChecks (k : Core) (d a : BitVec 4) (b : VOperand) : List (Bool × Nat × W64) :=
  let ts := (vTiles d a b).drop 1
  k.tileChecks d.toNat ++ ts.flatMap k.tileChecks ++
  [typeCheck (clsI (k.tile d.toNat).ty) 4 d.toNat (k.tile d.toNat),
   typeCheck ((k.tile d.toNat).cols == (k.tile a.toNat).cols) 3 d.toNat (k.tile d.toNat)] ++
  k.vChecks clsFI ts

def execVcmp (_ : BitVec 3) (d a : BitVec 4) (b : BitVec 5) (e p q r : BitVec 1) (f : BitVec 3)
    (s : State) : Host.Outcome State Fault Refusal :=
  let k := s.me
  let t := k.tile a.toNat
  let b' := s.vOperand b e
  let xs := (List.range t.cols).map (fun i =>
    (if vCompare f.toNat t.ty ((k.cursorRow a.toNat).getD i 0) ((k.bRow b' t.ty t.cols).getD i 0)
      then 1 else 0, 0))
  .next (s.guarded (k.vcmpChecks d a b') (fun s => s.exposing (fun s =>
    s.vResult 2 d xs [] (incs d a b p q r))))

/-! ### Reductions, scans and runs (R354, R356) -/

/-- The checks of two tiles of one TYPE whose column counts are free (R350, R357). -/
def Core.typeChecks (k : Core) (cls : Nat → Bool) (d a : BitVec 4) : List (Bool × Nat × W64) :=
  k.tileChecks d.toNat ++ k.tileChecks a.toNat ++
  [typeCheck (cls (k.tile d.toNat).ty) 4 d.toNat (k.tile d.toNat),
   typeCheck (cls (k.tile a.toNat).ty) 4 a.toNat (k.tile a.toNat),
   typeCheck ((k.tile a.toNat).ty == (k.tile d.toNat).ty) 0 a.toNat (k.tile a.toNat)]

def execVred (_ : BitVec 3) (d a : BitVec 4) (p q : BitVec 1) (f : BitVec 3) (s : State) :
    Host.Outcome State Fault Refusal :=
  let k := s.me
  let t := k.tile d.toNat
  let x := reduce f.toNat t.ty (laneRounding (k.rounding 1) t t.cur 0) (k.cursorRow a.toNat)
  .next (s.guarded (k.typeChecks (if 3 ≤ f.toNat then clsI else clsFI) d a) (fun s =>
    s.exposing (fun s => s.vResult 6 d (List.replicate t.cols x) [] (incs2 d a p q))))

/-- Lane i of a scan (R354). -/
def scanLane (fn ty : Nat) (r : Rounding) (xs : List Nat) (i : Nat) : WithFlags Nat :=
  match fn with
  | 0 => reduce 0 ty r (xs.take (i + 1))
  | 1 => reduce 0 ty r (xs.take i)
  | 2 => reduce 1 ty r (xs.take (i + 1))
  | _ => reduce 2 ty r (xs.take (i + 1))

def execVscan (_ : BitVec 3) (d a : BitVec 4) (p q : BitVec 1) (f : BitVec 2) (s : State) :
    Host.Outcome State Fault Refusal :=
  let k := s.me
  let t := k.tile d.toNat
  let xs := (List.range t.cols).map (fun i =>
    scanLane f.toNat t.ty (laneRounding (k.rounding 1) t t.cur i) (k.cursorRow a.toNat) i)
  .next (s.guarded (k.vChecks clsFI [d.toNat, a.toNat]) (fun s => s.exposing (fun s =>
    s.vResult 6 d xs [] (incs2 d a p q))))

/-- The checks of VSEGR (R356). -/
def Core.vsegrChecks (k : Core) (d a b : BitVec 4) (key : Bool) : List (Bool × Nat × W64) :=
  let td := k.tile d.toNat
  let ta := k.tile a.toNat
  let tb := k.tile b.toNat
  k.tileChecks d.toNat ++ k.tileChecks a.toNat ++ k.tileChecks b.toNat ++
  [if key then typeCheck (td.ty == tb.ty) 0 d.toNat td else typeCheck (clsFI td.ty) 4 d.toNat td,
   typeCheck (td.cols == tb.cols) 3 d.toNat td,
   typeCheck (if key then a == b else ta.ty == td.ty) 0 a.toNat ta, typeCheck (ta.cols == tb.cols) 3 a.toNat ta,
   typeCheck (clsFI tb.ty) 4 b.toNat tb]

def execVsegr (_ : BitVec 3) (d a b : BitVec 4) (p q r : BitVec 1) (f : BitVec 2) (s : State) :
    Host.Outcome State Fault Refusal :=
  let k := s.me
  let t := k.tile d.toNat
  let xs := k.cursorRow a.toNat
  let runs := keyRuns (k.cursorRow b.toNat).zipIdx
  let ys := (List.range t.cols).map (fun j =>
    match runs[j]? with
    | none => (segFill f.toNat t.ty, 0)
    | some (key, is) =>
      if f.toNat = 3 then (key, 0)
      else reduce f.toNat t.ty (laneRounding (k.rounding 1) t t.cur j) (is.map (fun i => xs.getD i 0)))
  .next (s.guarded (k.vsegrChecks d a b (f.toNat == 3)) (fun s => s.exposing (fun s =>
    s.vResult 8 d ys [] [(p == 1, d.toNat), (q == 1, a.toNat), (r == 1, b.toNat)])))

/-! ### Movement (R355, R357) -/

def execVbcast (_ : BitVec 3) (d a : BitVec 4) (b : BitVec 5) (p q : BitVec 1) (s : State) :
    Host.Outcome State Fault Refusal :=
  let k := s.me
  let t := k.tile d.toNat
  let ta := k.tile a.toNat
  let i := (s.reg b).toNat
  let x := (k.cursorRow a.toNat).getD i 0
  .next (s.guarded (k.vChecks clsFIP [d.toNat, a.toNat] ++
      [typeCheck (decide (i < ta.cols)) 2 a.toNat ta i]) (fun s => s.exposing (fun s =>
    s.vResult 2 d (List.replicate t.cols (x, 0)) [] (incs2 d a p q))))

def execViota (_ : BitVec 3) (d : BitVec 4) (b : BitVec 5) (p : BitVec 1) (s : State) :
    Host.Outcome State Fault Refusal :=
  let k := s.me
  let t := k.tile d.toNat
  let xs := (List.range t.cols).map (fun (i : Nat) =>
    let v : Int := (i : Int) + (s.reg b).toInt
    if isI t.ty then fitInt t.ty false v
    else roundTo t.ty (laneRounding (k.rounding 1) t t.cur i) (numOfInt v))
  .next (s.guarded (k.vChecks clsFI [d.toNat]) (fun s => s.exposing (fun s =>
    s.vResult 2 d xs [] [(p == 1, d.toNat)])))

/-- The further checks of VPERM: an index tile of class I with d's column count, or a with it. -/
def Core.vpermChecks (k : Core) (d a : BitVec 4) (b : VOperand) : List (Bool × Nat × W64) :=
  let td := k.tile d.toNat
  let ta := k.tile a.toNat
  match b with
  | .tile n =>
    k.tileChecks d.toNat ++ k.tileChecks a.toNat ++ k.tileChecks n ++ k.typeChecks clsFIP d a ++
    [typeCheck (clsI (k.tile n).ty) 4 n (k.tile n),
     typeCheck ((k.tile n).cols == td.cols) 3 n (k.tile n)]
  | _ => k.typeChecks clsFIP d a ++ [typeCheck (ta.cols == td.cols) 3 a.toNat ta]

/-- Lane i of VPERM (R357). -/
def permLane (k : Core) (b : VOperand) (xs : List Nat) (n i : Nat) : Nat :=
  match b with
  | .tile t =>
    let v := intOf (k.tile t).ty ((k.cursorRow t).getD i 0)
    if v < 0 then 0 else xs.getD v.toNat 0
  | .scalar v => xs.getD (((i : Int) + v.toInt) % (n : Int)).toNat 0
  | .none => 0

def execVperm (_ : BitVec 3) (d a : BitVec 4) (b : BitVec 5) (e p q r : BitVec 1) (s : State) :
    Host.Outcome State Fault Refusal :=
  let k := s.me
  let t := k.tile d.toNat
  let b' := s.vOperand b e
  let xs := (List.range t.cols).map (fun i => (permLane k b' (k.cursorRow a.toNat) t.cols i, 0))
  .next (s.guarded (k.vpermChecks d a b') (fun s => s.exposing (fun s =>
    s.vResult 4 d xs [] (incs d a b p q r))))

/-- The checks of VSORTK (R355). -/
def Core.vsortChecks (k : Core) (d a b : BitVec 4) : List (Bool × Nat × W64) :=
  let ta := k.tile a.toNat
  let tb := k.tile b.toNat
  k.tileChecks d.toNat ++ k.tileChecks a.toNat ++ k.tileChecks b.toNat ++
  k.vChecks clsFI [d.toNat, a.toNat] ++
  [typeCheck (tb.ty == 9 || tb.ty == 10 || tb.ty == 13 || tb.ty == 14) 4 b.toNat tb,
   typeCheck (tb.cols == ta.cols) 3 b.toNat tb]

def execVsortk (_ : BitVec 3) (d a b : BitVec 4) (p q r f : BitVec 1) (s : State) :
    Host.Outcome State Fault Refusal :=
  let k := s.me
  let t := k.tile d.toNat
  let tb := k.tile b.toNat
  let ty := (k.tile a.toNat).ty
  let before (x y : Nat) : Bool := if f = 1 then keyBefore ty y x else keyBefore ty x y
  let ks := sortKeys before (k.cursorRow a.toNat).zipIdx
  let keys := ks.map (fun x => if isF ty && (valueOf ty x.1).isNaN then canonNaN ty else x.1)
  .next (s.guarded (k.vsortChecks d a b) (fun s => s.exposing (fun s =>
    ((s.post 24 (rowWrite d.toNat t t.cur keys [] 0)).post 24
      (rowWrite b.toNat tb tb.cur (ks.map Prod.snd) [] 0)).advance
      (bumped [(p == 1, d.toNat), (q == 1, a.toNat), (r == 1, b.toNat)]) 1)))

/-! ### Functions, conversions and moves (R353, R359) -/

/-- A correctly rounded function of one operand; a zero operand of VRCP and VRSQ gives its infinity
and no flag, whatever SAT says (R353). -/
def State.function1 (s : State) (d a : BitVec 4) (p q : BitVec 1) (f : Num → WithFlags Num) : State :=
  s.lanewise clsF 8 d a .none (incs2 d a p q) (fun ty r x _ _ =>
    match f (valueOf ty x) with
    | (.inf neg, 0) =>
      if (valueOf ty x).isZero then roundTo ty rne (.inf neg) else roundTo ty r (.inf neg)
    | y => roundWith ty r y)

def execVexp2 (_ : BitVec 3) (d a : BitVec 4) (p q : BitVec 1) (s : State) :
    Host.Outcome State Fault Refusal :=
  .next (s.function1 d a p q pow2)

def execVrcp (_ : BitVec 3) (d a : BitVec 4) (p q : BitVec 1) (s : State) :
    Host.Outcome State Fault Refusal :=
  .next (s.function1 d a p q recip)

def execVrsq (_ : BitVec 3) (d a : BitVec 4) (p q : BitVec 1) (s : State) :
    Host.Outcome State Fault Refusal :=
  .next (s.function1 d a p q recipSqrt)

/-- The checks of VCVT (R359). -/
def Core.vcvtChecks (k : Core) (d a : BitVec 4) (sat : Bool) : List (Bool × Nat × W64) :=
  let td := k.tile d.toNat
  let ta := k.tile a.toNat
  k.tileChecks d.toNat ++ k.tileChecks a.toNat ++
  [typeCheck (td.ty != tE8M0) 4 d.toNat td,
   typeCheck (!sat || isI td.ty) 4 d.toNat td,
   typeCheck (!sat || isI ta.ty) 4 a.toNat ta,
   typeCheck (ta.cols == td.cols) 3 a.toNat ta]

def execVcvt (_ : BitVec 3) (d a : BitVec 4) (p q f : BitVec 1) (s : State) :
    Host.Outcome State Fault Refusal :=
  let k := s.me
  let td := k.tile d.toNat
  let ta := k.tile a.toNat
  let raw := k.cursorRow a.toNat
  let (xs, fl0) := decodeRow ta.ty raw (ta.rowScale ta.cur)
  let rs (i : Nat) : Rounding := laneRounding (k.rounding 1) td td.cur i
  let (ys, scales) : List (WithFlags Nat) × List Byte :=
    if isK td.ty then
      let (es, sc, fl) := quantRow td.ty rs xs
      (es.map (fun x => (x, fl ||| fl0)), sc)
    else if isI td.ty && isI ta.ty then (raw.map (fun x => fitInt td.ty (f == 1) (intOf ta.ty x)), [])
    else (xs.zipIdx.map (fun (x, i) => roundWith td.ty (rs i) (x, fl0)), [])
  .next (s.guarded (k.vcvtChecks d a (f == 1)) (fun s => s.exposing (fun s =>
    s.vResult 3 d ys scales (incs2 d a p q))))

def execVrnd (_ : BitVec 3) (d a : BitVec 4) (p q : BitVec 1) (s : State) :
    Host.Outcome State Fault Refusal :=
  .next (s.lanewise clsF 3 d a .none (incs2 d a p q) (fun ty r x _ _ => roundIntegral ty r x))

def execVmov (_ : BitVec 3) (d a : BitVec 4) (p q : BitVec 1) (s : State) :
    Host.Outcome State Fault Refusal :=
  let k := s.me
  let ta := k.tile a.toNat
  .next (s.guarded (k.vChecks (fun _ => true) [d.toNat, a.toNat]) (fun s => s.exposing (fun s =>
    s.vResult 2 d ((k.cursorRow a.toNat).map (fun x => (x, 0))) (ta.rowScale ta.cur)
      (incs2 d a p q))))

def execVmovScalar (_ : BitVec 3) (d : BitVec 4) (b : BitVec 5) (p : BitVec 1) (s : State) :
    Host.Outcome State Fault Refusal :=
  let k := s.me
  let t := k.tile d.toNat
  let xs := (k.bRow (.scalar (s.reg b)) t.ty t.cols).map (fun x => (x, 0))
  .next (s.guarded (k.vChecks clsFIP [d.toNat]) (fun s => s.exposing (fun s =>
    s.vResult 2 d xs [] [(p == 1, d.toNat)])))

/-! ### The attention merge (R360) -/

/-- A value in FP32 and its flags, rounded in a given state. -/
def toFp32 (r : Rounding) (x : WithFlags Num) : WithFlags Nat := roundWith tFP32 r x

def fp32Of (b : Nat) : Num := floatOf (fmtOf tFP32) b

/-- The weight of an operand: 0 for m = −∞, else 2^(m − max) with each step rounded. -/
def mergeWeight (r : Rounding) (m top : Num) : WithFlags Nat :=
  if m == .inf true then (0, 0)
  else
    let (x, f) := toFp32 r (sumExact [m, top.neg])
    let (y, g) := toFp32 r (pow2 (fp32Of x))
    (y, f ||| g)

/-- a × wa + b × wb with each step rounded. -/
def mergeSum (r : Rounding) (a wa b wb : Nat) : WithFlags Nat :=
  let (x, f) := toFp32 r (mulExact (fp32Of a) (fp32Of wa))
  let (y, g) := toFp32 r (mulExact (fp32Of b) (fp32Of wb))
  let (z, h) := toFp32 r (sumExact [fp32Of x, fp32Of y])
  (z, f ||| g ||| h)

/-- The merge of two triples: the rows acc and (m, l, +0.0, …), with the flags. The rounding of acc
lane i is `rs i`; m, l and the weights round as lanes 128 and 129 (log 10). -/
def mergeTriples (rs : Nat → Rounding) (acca rowa accb rowb : List Nat) :
    List Nat × List Nat × Flags :=
  let ma := rowa.getD 0 0
  let la := rowa.getD 1 0
  let mb := rowb.getD 0 0
  let lb := rowb.getD 1 0
  let nan := canonNaN tFP32
  let pad := List.replicate 126 0
  if [ma, mb, la, lb].any (fun x => (fp32Of x).isNaN) then
    (List.replicate 128 nan, [nan, nan] ++ pad, 0)
  else if fp32Of ma == .inf true && fp32Of mb == .inf true then
    (List.replicate 128 0, [(fmtOf tFP32).signBit + (fmtOf tFP32).infBits, 0] ++ pad, 0)
  else
    let m := pick true tFP32 ma mb
    let (ca, f1) := mergeWeight (rs 128) (fp32Of ma) (fp32Of m)
    let (cb, f2) := mergeWeight (rs 128) (fp32Of mb) (fp32Of m)
    let (l, f3) := mergeSum (rs 129) la ca lb cb
    let acc := (List.range 128).map (fun i => mergeSum (rs i) (acca.getD i 0) ca (accb.getD i 0) cb)
    (acc.map Prod.fst, [m, l] ++ pad, f1 ||| f2 ||| f3 ||| flagsOf acc)

/-- The checks of VTMG for one tile (R360). -/
def Core.tripleChecks (k : Core) (n : Nat) : List (Bool × Nat × W64) :=
  let t := k.tile n
  [typeCheck (t.ty == tFP32) 4 n t, typeCheck (t.cols == 128) 3 n t,
   typeCheck (t.cur % 2 == 0 && t.cur + 1 < t.rows) 2 n t t.cur]

def execVtmg (_ : BitVec 3) (d a b : BitVec 4) (p q r : BitVec 1) (s : State) :
    Host.Outcome State Fault Refusal :=
  let k := s.me
  let t := k.tile d.toNat
  let ta := k.tile a.toNat
  let tb := k.tile b.toNat
  let (acc, ml, fl) := mergeTriples (laneRounding (k.rounding 1) t t.cur) (ta.row ta.cur)
    (ta.row (ta.cur + 1)) (tb.row tb.cur) (tb.row (tb.cur + 1))
  let ts := [d.toNat, a.toNat, b.toNat]
  .next (s.guarded (ts.flatMap k.tileChecks ++ ts.flatMap k.tripleChecks) (fun s =>
    s.exposing (fun s =>
      ((s.post 6 (rowWrite d.toNat t t.cur acc [] fl)).post 6
        (rowWrite d.toNat t (t.cur + 1) ml [] 0)).advance
        (bumped [(p == 1, d.toNat), (q == 1, a.toNat), (r == 1, b.toNat)]) 2)))

end Sys2Proof.Machine
end

