-- ==== Sys2Proof/Machine/Matrix.lean ====
section
/-!
DEFINITION. The words of the M engine (spec/16_matrix.md): the format queue, ring operands, planes,
accumulators and operand tiles.
-/

namespace Sys2Proof.Machine

/-! ### Format words (R364 to R366) -/

/-- The fields of a format word (R365). -/
def fwFor (w : W64) : Nat := wbits w 3 0
def fwAtype (w : W64) : Nat := wbits w 7 4
def fwWtype (w : W64) : Nat := wbits w 11 8
def fwHad (w : W64) : Nat := wbits w 13 12
def fwSc (w : W64) : Nat := wbits w 21 14

/-- The element types that a plane may hold. -/
def planeType (t : Nat) : Bool := 2 ≤ t && t ≤ 6

/-- The fields of a format word from the most significant down: position, and whether the field holds
a value that the word with this OP accepts (R365, R462). -/
def formatFields (op : Nat) (w : W64) : List (Nat × Bool) :=
  [(22, wbits w 63 22 == 0),
   (14, if op = 6 || op == 7 then fwSc w != 0xFF else fwSc w == 0),
   (12, if op = 5 then fwHad w != 0 else fwHad w == 0),
   (8, if op = 1 || op == 3 then planeType (fwWtype w) else if op = 4 then fwWtype w == 2
       else fwWtype w == 0),
   (4, if op = 3 then planeType (fwAtype w) else if op = 4 then fwAtype w == 2 else fwAtype w == 0)]

/-- The head of the format queue. -/
def Core.format (k : Core) : W64 := k.stream.fmtq.headD 0

/-- Checks 1 to 3 of R364 with the FINFO of R366, after the privilege of R379. -/
def State.formatChecks (s : State) (op : Nat) (handlerOk : Bool) : List (Bool × Nat × W64) :=
  let w := s.me.format
  let addr := s.cur.q.addr % 2 ^ 14
  let info (kind found : Nat) : W64 := w64 (kind * 2 ^ 61 + addr * 2 ^ 32 + op * 256 + found * 16)
  [(!s.inHandler || handlerOk, 0x03, 0),
   (!s.me.stream.fmtq.isEmpty, 0x0A, info 0 0),
   (fwFor w == op, 0x0A, info 1 (fwFor w))] ++
  (formatFields op w).map (fun f =>
    (f.2, 0x02, w64 (0xE * 2 ^ 60 + f.1 * 2 ^ 54 + addr * 2 ^ 32 + w.toNat % 2 ^ 32)))

/-- Whether the format queue lets a word through checks 1 to 3 of R364. -/
def Core.formatGood (k : Core) (op : Nat) : Bool :=
  !k.stream.fmtq.isEmpty && fwFor k.format == op && (formatFields op k.format).all Prod.snd

/-- The head of the format queue popped (R364). -/
def Core.popFormat (k : Core) : Core :=
  { k with stream := { k.stream with fmtq := k.stream.fmtq.drop 1 } }

/-- An M word that is no exposed operation: its checks, then the pop and its effect. -/
def State.mWord (s : State) (op : Nat) (handlerOk : Bool) (checks : List (Bool × Nat × W64))
    (f : State → State) : State :=
  s.guarded (s.formatChecks op handlerOk ++ checks) (fun s => f (s.modMe Core.popFormat))

/-- An M word that is an exposed operation. -/
def State.mOperation (s : State) (op : Nat) (handlerOk : Bool) (checks : List (Bool × Nat × W64))
    (f : State → State) : State :=
  s.guarded (s.formatChecks op handlerOk ++ checks) (fun s =>
    s.exposing (fun s => f (s.modMe Core.popFormat)))

/-! ### Ring operands (R367) -/

/-- Scale bytes of one row of `k` elements (R367). -/
def scaleBytes (ty : Nat) : Nat := if ty = tMXFP8 then 8 else if ty = tOX4 then 16 else 0

/-- The position that an M word reads: CON plus the read point (R367). -/
def Ring.mPosition (r : Ring) : W32 := r.con + BitVec.ofNat 32 r.mread

/-- The ring checks of R367 for a slot of `rows` rows and a tail. -/
def State.mRingChecks (s : State) (n rows tail : Nat) : List (Bool × Nat × W64) :=
  let r := s.me.ring n
  let p := r.mPosition
  [(!s.inEpilogue, 0x03, 0),
   (r.enabled, 0x15, ringInfo n 6),
   (r.rel == r.con, 0x15, ringInfo n 5),
   (decide (rows * 256 + tail ≤ r.slotBytes), 0x15, ringInfo n 5),
   (r.tagAt p == p.setWidth 16, 0x07, tagInfo n p (r.tagAt p))]

/-- A key for the bytes that the issuing word reads; each word has 256 of them. -/
def State.mKey (s : State) (i : Nat) : Nat := s.me.ord * 256 + i

/-! ### Occupancies (R371) -/

/-- The first tide at which a new occupancy overlaps an earlier one that R371 forbids. -/
def clashTide (q first last : Nat) (load : Bool) (os : List Occupancy) : Option Nat :=
  (os.find? (fun o => o.plane == q && o.first ≤ last && first ≤ o.last && (o.load || load))).map
    (fun o => Nat.max first o.first)

/-- A plane occupied, and the fault of a forbidden overlap at its first tide (R371). -/
def State.occupy (s : State) (q first last : Nat) (load : Bool) : State :=
  let s' := s.modMe (fun k => { k with
    occ := k.occ.filter (fun o => s.tide ≤ o.last) ++ [⟨q, first, last, load, k.ord⟩] })
  match clashTide q first last load (s.me.occ.filter (fun o => s.tide ≤ o.last)) with
  | some t => s'.post (t - s.tide) (.planeClash q)
  | none => s'

/-! ### Rows of elements -/

/-- The unscaled elements of a 256-byte row and whether a stray OX4 code stands in it (R265, R279). -/
def mElems (ty : Nat) (bs : List Byte) : List Num × Bool :=
  if ty = tOX4 then ox4Groups (unpack 4 bs)
  else if ty = tBF16 then ((unpack 16 bs).map (floatOf (fmtOf tBF16)), false)
  else if ty = tE5M2 then ((unpack 8 bs).map (floatOf (fmtOf tE5M2)), false)
  else ((unpack 8 bs).map (floatOf (fmtOf tE4M3)), false)

/-- A chain of R279 from the accumulator's element, with the scales of both operands. -/
def mChain (ty acc : Nat) (a b : List Num) (sa sb : List Byte) : WithFlags Nat :=
  if ty = tBF16 then chainBf16 acc a b
  else if ty = tMXFP8 || ty = tOX4 then
    chainBlocks (acc, 0) ((chunksOf 32 (a.length / 32) (a.zip b)).zipIdx.map (fun (ps, i) =>
      (ps, (sa.getD i 0).toNat, (sb.getD i 0).toNat)))
  else chainFp8 (acc, 0) (a.zip b)

/-- Column n of a plane: elements and scales. -/
def Plane.column (p : Plane) (n : Nat) : List Byte := p.cols.read (256 * n) 256
def Plane.columnScales (p : Plane) (n : Nat) : List Byte :=
  p.scales.read (scaleBytes p.ct * n) (scaleBytes p.ct)

/-- Accumulator row j. -/
def accIndex (a row : Nat) : Nat := a * 16384 + row * 128
def Core.accRow (k : Core) (a row : Nat) : List Nat :=
  (Sparse.read 0 k.acc (accIndex a row) 128).map BitVec.toNat
def Core.setAccRow (k : Core) (a row : Nat) (xs : List Nat) : Core :=
  { k with acc := Sparse.write 0 k.acc (accIndex a row) (xs.map (BitVec.ofNat 32)) }

/-- An output row of MFWD or MBWD (R372, R373), with its flags. -/
def mRowResult (p : Plane) (bwd : Bool) (ty : Nat) (old : List Nat) (data scales : List Byte) :
    List (WithFlags Nat) :=
  let (x, stray) := mElems ty data
  let cols := (List.range 128).map (fun n => (mElems p.ct (p.column n)).1)
  let f0 := if stray then flagInvalid else 0
  (List.range 128).map (fun n =>
    let w := if bwd then cols.map (fun c => c.getD n .nan) else cols.getD n []
    let r := mChain ty (old.getD n 0) x w scales (p.columnScales n)
    (r.1, r.2 ||| f0))

/-! ### Loading, swapping and streaming (R369 to R374) -/

/-- The read point of a ring raised by an M word at its issue (R367). -/
def Core.raiseRead (k : Core) (n : Nat) : Core :=
  k.setRing n { k.ring n with mread := (k.ring n).mread + 1 }

/-- The tail of a slot, read in one beat at issue + 1 (R367). -/
def State.mReadTail (s : State) (off len : Nat) : State :=
  if len = 0 then s else s.post 1 (.mRead (s.mKey 128) off len) (banksOf off len)

/-- The keys of the issuing word. -/
def State.mKeys (s : State) : List Nat := (List.range 129).map s.mKey

def execMwld (_ : BitVec 3) (k : BitVec 4) (r : BitVec 7) (s : State) :
    Host.Outcome State Fault Refusal :=
  let n := k.toNat
  let wt := fwWtype s.me.format
  let q := 1 - s.me.act
  let ring := s.me.ring n
  let off := ring.slotAddr ring.mPosition
  let tail := 128 * scaleBytes wt
  .next (s.mOperation 1 false (s.mRingChecks n 128 tail) (fun s =>
    let s := s.modMe (fun c => { c.raiseRead n with
      planes := vset c.planes q { vget {} c.planes q with wt := wt } })
    let s := (s.occupy q (s.tide + 2) (s.tide + 132) true).mReadTail (off + 32768) tail
    let s := s.eachLine 16 (fun i s =>
      s.post (2 + i) (.mRead (s.mKey i) (off + 2048 * i) 2048) (banksOf (off + 2048 * i) 2048))
    (s.post 132 (.mPlane q wt (r.toNat + 1) (s.mKey 0))).post 132 (.mRetire n s.mKeys)))

def execMswp (_ : BitVec 3) (s : State) : Host.Outcome State Fault Refusal :=
  .next (s.mWord 2 false [] (fun s => s.modMe (fun k => { k with act := 1 - k.act })))

/-- Whether a streamed type pairs with a plane type (R368). -/
def pairs (bwd : Bool) (wt at_ : Nat) : Bool :=
  if wt = tBF16 then at_ == tBF16
  else if bwd then false
  else if wt = tE4M3 || wt = tE5M2 then at_ == tE4M3 || at_ == tE5M2
  else at_ == wt

/-- The checks of a streaming word on its types (R368). -/
def Core.streamChecks (k : Core) (bwd : Bool) : List (Bool × Nat × W64) :=
  let wt := fwWtype k.format
  let p := vget {} k.planes k.act
  [(pairs bwd wt (fwAtype k.format), 0x09, typeInfo 4 0 wt 0),
   (p.wt == wt, 0x09, typeInfo 0 0 p.wt 0)]

/-- The streaming of the rows of a slot through the active plane (R372 to R374). -/
def State.streamRows (s : State) (bwd : Bool) (a : BitVec 2) (k : BitVec 4) (r : BitVec 7) : State :=
  let n := k.toNat
  let ty := fwAtype s.me.format
  let q := s.me.act
  let rows := r.toNat + 1
  let ring := s.me.ring n
  let off := ring.slotAddr ring.mPosition
  let tail := rows * scaleBytes ty
  s.mOperation (if bwd then 4 else 3) false (s.me.streamChecks bwd ++ s.mRingChecks n rows tail) (fun s =>
      let s := s.modMe (fun c => c.raiseRead n)
      let s := (s.occupy q s.tide (s.tide + rows + 131) false).mReadTail (off + rows * 256) tail
      let s := s.eachLine rows (fun j s =>
        (s.post (2 + j) (.mRead (s.mKey j) (off + 256 * j) 256) (banksOf (off + 256 * j) 256)).post
          (j + 132) (.mAcc bwd a.toNat q j ty (s.mKey j) (s.mKey 128)))
      s.post (rows + 131) (.mRetire n s.mKeys))

def execMfwd (_ : BitVec 3) (a : BitVec 2) (k : BitVec 4) (r : BitVec 7) (s : State) :
    Host.Outcome State Fault Refusal :=
  .next (s.streamRows false a k r)

def execMbwd (_ : BitVec 3) (a : BitVec 2) (k : BitVec 4) (r : BitVec 7) (s : State) :
    Host.Outcome State Fault Refusal :=
  .next (s.streamRows true a k r)

/-! ### Draining and clearing (R375, R376) -/

/-- The types that MDRN may write (R375). -/
def drainType (t : Nat) : Bool := t ≤ 4

def execMdrn (_ : BitVec 3) (a : BitVec 2) (k : BitVec 4) (r : BitVec 7) (v z : BitVec 1)
    (s : State) : Host.Outcome State Fault Refusal :=
  let n := k.toNat
  let t := s.me.tile n
  let rows := r.toNat + 1
  let sc := fwSc s.me.format
  .next (s.mOperation 7 (z == 0)
    (s.me.tileChecks n ++ [typeCheck (t.cols == 128) 3 n t, typeCheck (drainType t.ty) 4 n t,
      typeCheck (decide (t.cur + rows ≤ t.rows)) 2 n t t.cur]) (fun s =>
    (s.eachLine rows (fun j s => s.post (j + 3)
      (.mDrain a.toNat j n (t.cur + j) t.shape sc (z == 1) (s.me.rounding 2)))).advance
      (bumped [(v == 1, n)]) rows))

def execMclr (_ : BitVec 3) (a : BitVec 2) (r : BitVec 7) (s : State) :
    Host.Outcome State Fault Refusal :=
  .next (s.mWord 8 false [] (fun s => s.modMe (fun k => { k with
    inflight := k.inflight ++ [
      { at_ := s.tide, eng := s.cur.eng, ord := k.ord, op := .mClear a.toNat (r.toNat + 1)
        exposed := false }] })))

/-! ### Operand tiles (R377, R378) -/

/-- The number of points that a format word names, and the exponent of its scale (R281). -/
def hadPoints (w : W64) : Nat := 8 * 2 ^ fwHad w
def hadScale (w : W64) : Int := if fwHad w = 3 then -3 else -2

/-- Output i of a transform of a run (R281). -/
def hadamard (xs : List Num) (i : Nat) : WithFlags Num :=
  sumExact (xs.zipIdx.map (fun (x, j) =>
    if (onesCount (w64 (Nat.land i j))).toNat % 2 = 1 then x.neg else x))

/-- The post-increments of MHAD and MQNT. -/
def pairIncs (inc : BitVec 1) (d k : BitVec 4) : List Nat :=
  bumped [(inc == 1, d.toNat), (inc == 1, k.toNat)]

def execMhad (_ : BitVec 3) (k : BitVec 4) (n : BitVec 1) (d : BitVec 4) (s : State) :
    Host.Outcome State Fault Refusal :=
  let c := s.me
  let td := c.tile d.toNat
  let ts := c.tile k.toNat
  let p := hadPoints c.format
  let xs := (c.cursorRow k.toNat).map (valueOf ts.ty)
  let ys := (List.range td.cols).map (fun i =>
    let y := hadamard ((xs.drop (i / p * p)).take p) (i % p)
    roundWith td.ty (laneRounding (c.rounding 2) td td.cur i)
      (y.1.scale (hadScale c.format), y.2))
  .next (s.mOperation 5 true
    (c.tileChecks d.toNat ++ c.tileChecks k.toNat ++
      [typeCheck (isF td.ty) 4 d.toNat td, typeCheck (td.cols == ts.cols) 3 d.toNat td,
       typeCheck (td.cols % p == 0) 2 d.toNat td td.cols, typeCheck (isF ts.ty) 4 k.toNat ts]) (fun s =>
    (s.post 16 (rowWrite d.toNat td td.cur (ys.map Prod.fst) [] (flagsOf ys))).advance
      (pairIncs n d k) 1))

def execMqnt (_ : BitVec 3) (k : BitVec 4) (n : BitVec 1) (d : BitVec 4) (s : State) :
    Host.Outcome State Fault Refusal :=
  let c := s.me
  let td := c.tile d.toNat
  let ts := c.tile k.toNat
  let xs := (c.cursorRow k.toNat).map (fun x =>
    (valueOf ts.ty x).scale ((fwSc c.format : Int) - 127))
  let (es, sc, fl) := quantRow td.ty (laneRounding (c.rounding 2) td td.cur) xs
  .next (s.mOperation 6 true
    (c.tileChecks d.toNat ++ c.tileChecks k.toNat ++
      [typeCheck (isK td.ty) 4 d.toNat td, typeCheck (td.cols == ts.cols) 3 d.toNat td,
       typeCheck (isF ts.ty) 4 k.toNat ts]) (fun s =>
    (s.post 6 (rowWrite d.toNat td td.cur es sc fl)).advance (pairIncs n d k) 1))

end Sys2Proof.Machine
end

