-- ==== Sys2Proof/Machine/Loads.lean ====
section
/-!
DEFINITION. The words of the L engine (R381 to R389).
-/

namespace Sys2Proof.Machine

/-! ### Scalars (R385) -/

/-- Bytes of a size code (R384). -/
def sizeOf (z : BitVec 2) : Nat := 2 ^ z.toNat

def execLd (_ : BitVec 3) (d b x : BitVec 5) (p : BitVec 2) (g : BitVec 1) (z : BitVec 2) (s : State) :
    Host.Outcome State Fault Refusal :=
  let e := (s.ea b x).toNat
  let n := sizeOf z
  .next (s.writing d (fun s => s.guarded (s.me.addressChecks p.toNat e n false) (fun s =>
    if p = 0 then s.globalAccess .load e n (.load d.toNat n (g == 1)) (regMark d.toNat)
    else s.exposing (fun s =>
      let at_ := placeOf s.cur.core p.toNat e
      s.beats 3 at_ n (fun _ _ => .load d.toNat at_ n (g == 1))))))

/-- A timed load that marks its destination pending until its tide (R383). -/
def State.timedLoad (s : State) (d off : Nat) (op : POp) (banks : List Nat) (slot : Bool := false) :
    State :=
  s.exposing (fun s =>
    let s := if d = 0 then s else s.markPending (.reg d) (some (s.tide + off))
    let s := s.post off op banks
    if slot then s.cohortUse 0 else s)

def execLdg (_ : BitVec 3) (d b x : BitVec 5) (g : BitVec 1) (z : BitVec 2) (s : State) :
    Host.Outcome State Fault Refusal :=
  let p := s.ea b x
  let n := sizeOf z
  let sx := g == 1
  .next (s.writing d (fun s => s.checked (deref s.me p .all (fun a => aligned a n)) (fun t s =>
    match t with
    | .global va => s.globalAccess .load va n (.load d.toNat n sx) (regMark d.toNat)
    | .scratch a => s.guarded [s.me.slotCheck a n] (fun s =>
        s.timedLoad d.toNat 3 (.load d.toNat (.scratch a) n sx) (banksOf a n))
    | .cohort a =>
      s.timedLoad d.toNat 12 (.load d.toNat (placeOf s.cur.core 2 a) n sx) [] true
    | .value _ _ => s.checked (s.me.resolve p) (fun v s =>
        s.timedLoad d.toNat 3 (.loadValue d.toNat p 0 n sx) (banksOf (s.me.blockAddr v) n)))))

/-! ### Tiles (R386, R387) -/

/-- Bytes of an image in whole lines. -/
def imageLines (w : W32) : Nat := 64 * lineCount (imageBytes w)

/-- LDT of an image. -/
def State.loadImage (s : State) (d : BitVec 4) (sp e : Nat) : State :=
  let w := (s.me.tile d.toNat).shape
  let n := imageLines w
  s.guarded (s.me.tileChecks d.toNat ++ s.me.addressChecks sp e n false) (fun s =>
    if sp = 0 then
      s.globalAccess .load e n (.loadTile d.toNat (elemBytes w) n) (some (.tile d.toNat))
    else s.exposing (fun s =>
      let at_ := placeOf s.cur.core sp e
      s.beats 3 at_ n (fun off len => .tileLoad d.toNat (elemBytes w) off (at_.plus off) len)))

/-- LDT of a result record into triple form. -/
def State.loadTriple (s : State) (d : BitVec 4) (e : Nat) (adv : Bool) : State :=
  let t := s.me.tile d.toNat
  s.guarded (s.me.tileChecks d.toNat ++
      [typeCheck (t.ty == tFP32) 0 d.toNat t, typeCheck (t.cols == 128) 3 d.toNat t,
       typeCheck (t.cur % 2 == 0 && decide (t.cur + 1 < t.rows)) 2 d.toNat t t.cur] ++
      s.me.addressChecks 1 e 576 false) (fun s => s.exposing (fun s =>
    (s.post 3 (.tripLoad d.toNat t.cur (.scratch e)) (banksOf e 576)).advance
      (bumped [(adv, d.toNat)]) 2))

def execLdt (_ : BitVec 3) (d : BitVec 4) (b x : BitVec 5) (p : BitVec 2) (v t : BitVec 1)
    (s : State) : Host.Outcome State Fault Refusal :=
  let e := (s.ea b x).toNat
  .next (if t = 1 then s.loadTriple d e (v == 1) else s.loadImage d p.toNat e)

def execLdr (_ : BitVec 3) (d : BitVec 4) (b x : BitVec 5) (p : BitVec 2) (n : BitVec 1) (s : State) :
    Host.Outcome State Fault Refusal :=
  let e := (s.ea b x).toNat
  let t := s.me.tile d.toNat
  let rb := rowBytes t.shape
  let len := 64 * lineCount rb
  let off := t.cur * rb
  let inc := bumped [(n == 1, d.toNat)]
  .next (s.guarded (s.me.tileChecks d.toNat ++ [typeCheck (!isK t.ty) 4 d.toNat t] ++
      s.me.addressChecks p.toNat e len false) (fun s =>
    if p = 0 then
      s.withEntries [(e, .load)] (fun es s =>
        let go (s : State) : State :=
          es.foldl (fun s x => s.request (.loadRow d.toNat off rb) (pieceOf x e len) [x])
            (s.markPending (.tile d.toNat))
        if n = 1 then s.exposing (fun s => (go s).advance inc 1) else go s)
    else s.exposing (fun s =>
      let at_ := placeOf s.cur.core p.toNat e
      (s.beats 3 at_ len (fun o m =>
        .rowLoad d.toNat (off + o) (at_.plus o) (Nat.min m (rb - o)))).advance inc 1)))

/-- Bytes of the source of LDTR (R387). -/
def ldtrBytes (w : W32) : Nat := 64 * lineCount (shapeCols w * shapeRows w * 33 / 32)

def execLdtr (_ : BitVec 3) (d : BitVec 4) (b x : BitVec 5) (s : State) :
    Host.Outcome State Fault Refusal :=
  let e := (s.ea b x).toNat
  let t := s.me.tile d.toNat
  let len := ldtrBytes t.shape
  .next (s.guarded (s.me.tileChecks d.toNat ++
      [typeCheck (t.ty == tBF16) 4 d.toNat t,
       typeCheck (t.rows % 32 == 0) 1 d.toNat t t.shape.toNat] ++
      s.me.addressChecks 1 e len false) (fun s => s.exposing (fun s =>
    (s.beats 3 (.scratch e) len (fun o m => .ldtrRead d.toNat t.shape (e + o) m (o / 2048))).post 134
      (.ldtrWrite d.toNat t.shape))))

/-! ### Gather and scatter (R388) -/

/-- The row addresses of a list in scratchpad. -/
def Core.rowAddresses (k : Core) (base : W64) (list rows rb : Nat) : List Nat :=
  (wordsOf 4 rows (k.scratch.read list (4 * rows))).map (fun i => (base + w64 (i * rb)).toNat)

/-- The checks of a gather or scatter on its table and list, the tags of ring slots that the list meets among them
(R134). -/
def Core.tableChecks (k : Core) (base list : W64) (rows rb : Nat) : List (Bool × Nat × W64) :=
  [([64, 128, 256, 512].contains rb && base.toNat % rb == 0, 0x16, base),
   (list.toNat % 64 == 0, 0x16, list),
   (decide (list.toNat + 4 * rows ≤ 2 ^ 22), 0x0D, list), k.slotCheck list.toNat (4 * rows)]

/-- The checks of a gather or scatter of rows of a tile. -/
def State.rowChecks (s : State) (n sp : Nat) (base list : W64) (write : Bool) :
    List (Bool × Nat × W64) :=
  let t := s.me.tile n
  let rb := rowBytes t.shape
  s.me.tileChecks n ++ [typeCheck (!isK t.ty) 4 n t] ++ s.me.tableChecks base list t.rows rb ++
  (s.me.rowAddresses base list.toNat t.rows rb).flatMap (fun a => s.me.addressChecks sp a rb write)

/-- The pieces of rows, under their entries. -/
def rowPieces (es : List TlbEntry) (as : List Nat) (rb : Nat) : List Piece :=
  (es.zip as).map (fun p => ⟨p.2, p.1.target p.2, rb⟩)

def execGth (_ : BitVec 3) (d : BitVec 4) (b l : BitVec 5) (p : BitVec 2) (s : State) :
    Host.Outcome State Fault Refusal :=
  let n := d.toNat
  let t := s.me.tile n
  let rb := rowBytes t.shape
  let list := s.reg l
  let rows := s.me.rowAddresses (s.reg b) list.toNat t.rows rb
  .next (s.guarded (s.rowChecks n p.toNat (s.reg b) list false) (fun s =>
    if p = 0 then
      s.withEntries (rows.map (fun a => (a, .load))) (fun es s =>
        ((s.post 0 .use (banksOf list.toNat (4 * t.rows))).markPending (.tile n)).request
          (.loadRows n rb) (rowPieces es rows rb) es)
    else s.exposing (fun s =>
      rows.zipIdx.foldl (fun s a =>
        s.post (3 + a.2) (.rowLoad n (a.2 * rb) (.scratch a.1) rb) (banksOf a.1 rb))
        (s.post 0 .use (banksOf list.toNat (4 * t.rows))))))

/-! ### Values from memory (R389) -/

def execLdv (_ : BitVec 3) (d b h : BitVec 5) (p : BitVec 2) (s : State) :
    Host.Outcome State Fault Refusal :=
  let w : W32 := (s.reg h).setWidth 32
  let e := (s.reg b).toNat
  let len := imageLines w
  let blocks := blocksOf len
  let make (s : State) (f : Nat → State → State) : State := s.exposing (fun s =>
    s.checked (s.me.produce blocks w s.tide) (fun r s =>
      f r.1 ((s.modMe (fun _ => r.2)).post 1 (.reg d.toNat (r.2.handleOf r.1)))))
  .next (s.writing d (fun s => s.guarded
      ([s.countPrivilege,
        (shapeFits 32768 w, 0x09, typeInfo 1 0 (shapeType w) w.toNat)] ++
       s.me.addressChecks p.toNat e len false) (fun s =>
    if p = 0 then
      s.withEntries [(e, .load)] (fun es s => make s (fun v s =>
        es.foldl (fun s x => s.request (.loadValue v len) (pieceOf x e len) [x])
          ((s.markPending (.value v)).modMe (fun k => k.holdValue v blocks))))
    else
      make s (fun v s => s.eachLine (lineCount (imageBytes w)) (fun i s =>
        s.post (3 + i / 32) (.lineRead (e + 64 * i) none (s.me.blockAddr v + 64 * i) [])
          (banksOf (e + 64 * i) 64))))))

end Sys2Proof.Machine
end

