-- ==== Sys2Proof/Machine/Stores.lean ====
section
/-!
DEFINITION. The store words of the W engine (R388, R391, R392).
-/

namespace Sys2Proof.Machine

/-- A store of bytes at an address of a space, after its checks. -/
def State.storeAt (s : State) (sp e : Nat) (bs : List Byte) : State :=
  if sp = 0 then s.globalAccess .store e bs.length (.store bs)
  else s.exposing (fun s => s.storeBeats (placeOf s.cur.core sp e) bs)

def execSt (_ : BitVec 3) (r b x : BitVec 5) (p z : BitVec 2) (s : State) :
    Host.Outcome State Fault Refusal :=
  let e := (s.ea b x).toNat
  let n := sizeOf z
  .next (s.guarded (s.me.addressChecks p.toNat e n true) (fun s =>
    s.storeAt p.toNat e (bytesOfNat n (s.reg r).toNat)))

/-- The checks of a store through a generic pointer (R189, R391). -/
def Core.storeTarget (k : Core) (p : W64) (n : Nat) : Checked Deref :=
  match deref k p .all (fun a => aligned a n) with
  | .ok (.value _ _) => .error (0x0F, protInfo 4 7 p.toNat)
  | .ok (.scratch a) => if k.touchesHeap a n then .error (0x0F, protInfo 0 7 a) else .ok (.scratch a)
  | r => r

def execStg (_ : BitVec 3) (r b x : BitVec 5) (z : BitVec 2) (s : State) :
    Host.Outcome State Fault Refusal :=
  let n := sizeOf z
  let bs := bytesOfNat n (s.reg r).toNat
  .next (s.checked (s.me.storeTarget (s.ea b x) n) (fun t s =>
    match t with
    | .global va => s.storeAt 0 va bs
    | .scratch a => s.storeAt 1 a bs
    | .cohort a => s.storeAt 2 a bs
    | .value _ _ => s))

/-- The BF16 image of an FP32 tile with its flags (R391). -/
def Tile.narrowed (t : Tile) (c : RoundCtx) : List Byte × Flags :=
  let xs := (unpack 32 (t.data.read 0 (elemBytes t.shape))).zipIdx.map (fun (x, i) =>
    convert tFP32 tBF16 (c.at i) false x)
  let bs := packElems 16 (xs.map Prod.fst)
  (bs ++ List.replicate (64 * lineCount bs.length - bs.length) 0, flagsOf xs)

def execStt (_ : BitVec 3) (r : BitVec 4) (b x : BitVec 5) (p : BitVec 2) (n : BitVec 1) (s : State) :
    Host.Outcome State Fault Refusal :=
  let e := (s.ea b x).toNat
  let t := s.me.tile r.toNat
  let im : List Byte × Flags := if n = 1 then t.narrowed (s.me.rounding 5) else (t.image, 0)
  .next (s.guarded (s.me.tileChecks r.toNat ++
      [typeCheck (n == 0 || t.ty == tFP32) 4 r.toNat t] ++
      s.me.addressChecks p.toNat e im.1.length true) (fun s =>
    if n = 0 then s.storeAt p.toNat e im.1
    else if p = 0 then
      s.withEntries [(e, .store)] (fun es s => s.exposing (fun s =>
        es.foldl (fun s y => s.request (.store im.1) (pieceOf y e im.1.length) [y])
          (s.post 4 (.flagBits 5 im.2))))
    else s.exposing (fun s =>
      (s.post 4 (.flagBits 5 im.2)).storeBeats (placeOf s.cur.core p.toNat e) im.1)))

def execStv (_ : BitVec 3) (r b x : BitVec 5) (s : State) : Host.Outcome State Fault Refusal :=
  let e := (s.ea b x).toNat
  .next (s.checked (s.me.resolve (s.reg r)) (fun v s =>
    let len := imageLines (s.me.block v).shape
    s.guarded (s.me.addressChecks 0 e len true) (fun s =>
      s.withEntries [(e, .store)] (fun es s =>
        es.foldl (fun s y => s.request (.storeValue v 0 len) (pieceOf y e len) [y])
          (s.modMe (fun k => k.holdValue v (blocksOf len)))))))

def execSct (_ : BitVec 3) (r : BitVec 4) (b l : BitVec 5) (p : BitVec 2) (s : State) :
    Host.Outcome State Fault Refusal :=
  let n := r.toNat
  let t := s.me.tile n
  let rb := rowBytes t.shape
  let list := s.reg l
  let rows := s.me.rowAddresses (s.reg b) list.toNat t.rows rb
  let use := banksOf list.toNat (4 * t.rows)
  .next (s.guarded (s.rowChecks n p.toNat (s.reg b) list true) (fun s =>
    if p = 0 then
      s.withEntries (rows.map (fun a => (a, .store))) (fun es s =>
        (s.post 0 .use use).request (.store (t.data.read 0 (elemBytes t.shape)))
          (rowPieces es rows rb) es)
    else s.exposing (fun s =>
      rows.zipIdx.foldl (fun s a =>
        s.post (4 + a.2) (.store (.scratch a.1) (t.data.read (a.2 * rb) rb)) (banksOf a.1 rb))
        (s.post 0 .use use))))

end Sys2Proof.Machine
end

