-- ==== Sys2Proof/Machine/Near.lean ====
section
/-!
DEFINITION. The near-memory words of the W and X engines (R393 to R404): reductions, key–value appends
and page operations, breakwater staging, queries, KV segments, groups and the optimiser step.
-/

namespace Sys2Proof.Machine

/-! ### Requests (R196, R207) -/

/-- The confinement of a word to the epilogue of a pre-emptible kernel (R117). -/
def State.epilogueOnly (s : State) : Bool × Nat × W64 := (!s.preemptible || s.inEpilogue, 0x03, 0)

/-- A message of the word that is issuing to a base die, from `least` tc after this tide on. -/
def State.send (s : State) (n stack : Nat) (kind : MsgKind) (reg : Nat := 0) (least : Nat := 1)
    (remote : Option Nat := none) (info : W64 := 0) : State :=
  let (d, s) := s.later least
  { s with msgs := s.msgs ++ [{
      id := n, core := some s.cur.core, task := s.me.task.getD 0, part := s.me.part, stack := stack
      kind := kind, reg := reg, ready := d, remote := remote, info := info, vf := s.myTask.vf }] }

/-- The place that a reduction changes: here, or in another package. -/
def MsgKind.place (k : MsgKind) (part : Nat) (remote : Option Nat) : Option Target :=
  match k with
  | .red _ a _ => some (match remote with
    | none => .device a
    | some i => .pod part i a)
  | _ => none

/-- The pages of a page operation: a fork may also write the page that it names for a copy (R227). -/
def MsgKind.pages : MsgKind → List Nat
  | .kvAppend p .. => [p]
  | .kvRescale p .. => [p]
  | .kvFork p _ d => if d = 0 then [p] else [p, d]
  | .kvRelease p _ => [p]
  | _ => []

/-- A near-memory request, which awaits its acknowledgement. -/
def State.near (s : State) (stack : Nat) (kind : MsgKind) (reg : Nat := 0) (tlb : List Nat := []) (least : Nat := 1)
    (remote : Option Nat := none) (info : W64 := 0) : State :=
  let (n, s) := s.number
  (s.modMe (fun k => { k.holdEntries tlb with
    near := k.near ++ [{ id := n, task := k.task, issued := s.tide, pages := kind.pages, tlb := tlb,
                          target := kind.place k.part remote }] })).send n stack kind
      reg least remote info

/-! ### Reductions (R393) -/

/-- The element types of a reduction operation. -/
def reduceType (op ty : Nat) : Bool :=
  if op = 0 || op == 6 || op == 7 then ty == tFP32 else ty == 10 || ty == 14

/-- The address checks of a reduction of `n` consecutive elements. -/
def reduceChecks (e n : Nat) : List (Bool × Nat × W64) :=
  [(decide (e + 4 * n ≤ 2 ^ 57), 0x0D, w64 e), (e % 4 == 0, 0x16, w64 e),
   (decide (e % 2 ^ 16 + 4 * n ≤ 2 ^ 16), 0x16, w64 e)]

/-- One reduction record, to the base die of a local target or to the home package's inbox. -/
def State.reduceOne (s : State) (t : TlbEntry) (op va : Nat) (v : W32) : State :=
  match t.target va with
  | .device dpa => s.near (s.stackOf dpa) (.red op dpa v) 0 [t.id] 1 none (w64 va)
  | .pod _ i off => s.near 0 (.red op off v) 0 [t.id] 1 (some i) (w64 va)
  | _ => s

/-- Reduction records of consecutive elements, in ascending order, behind their checks. -/
def State.reductions (s : State) (op e : Nat) (vs : List W32) (f : State → State) : State :=
  s.guarded (reduceChecks e vs.length) (fun s =>
    s.withRoom vs.length (fun s => s.translated [(e, .reduce)] (fun ts s =>
      f (ts.foldl (fun s t =>
        vs.zipIdx.foldl (fun s x => s.reduceOne t op (e + 4 * x.2) x.1) s) s))))

def execRed (_ : BitVec 3) (r b x : BitVec 5) (o : BitVec 3) (s : State) :
    Host.Outcome State Fault Refusal :=
  .next (s.guarded [s.epilogueOnly] (fun s =>
    s.reductions o.toNat (s.ea b x).toNat [(s.reg r).setWidth 32] (fun s => s)))

def execRedRow (_ : BitVec 3) (r : BitVec 4) (b x : BitVec 5) (n : BitVec 1) (o : BitVec 3) (s : State) :
    Host.Outcome State Fault Refusal :=
  let t := s.me.tile r.toNat
  let vs := (s.me.cursorRow r.toNat).map (BitVec.ofNat 32)
  let go (s : State) : State :=
    s.reductions o.toNat (s.ea b x).toNat vs (fun s => s.advance (bumped [(n == 1, r.toNat)]) 1)
  .next (s.guarded ([s.epilogueOnly] ++ s.me.tileChecks r.toNat ++
      [typeCheck (reduceType o.toNat t.ty) 4 r.toNat t]) (fun s =>
    if n = 1 then s.exposing go else go s))

/-! ### Key–value pages (R394 to R398) -/

/-- FINFO of 0x10 and 0x11 (R406). -/
def kvInfo (slot head ord : Nat) : W64 := w64 (slot * 2 ^ 48 + head * 2 ^ 40 + ord % 2 ^ 32)

/-- FINFO of a selector's faults. -/
def selectorInfo (sel : W64) : W64 := kvInfo (wbits sel 15 0) (wbits sel 23 16) (wbits sel 63 32)

/-- The segments that a lookup at this tide uses: one that a KVTL replaces at the tide is the new one (R402). -/
def Core.kvTables (k : Core) (tide : Nat) : Vector KvSegment 16 :=
  k.inflight.foldl (fun v p =>
    match p.op with
    | .kvSegment n g => if p.at_ = tide then vset v n g else v
    | _ => v) k.kvseg

/-- The entry of the lowest-numbered valid segment that covers an ordinal (R229). -/
def Core.kvEntry (k : Core) (tide slot head ord : Nat) : Option W64 :=
  ((k.kvTables tide).toList.find? (fun g => wbit g.desc 63 && wbits g.desc 15 0 == slot
    && wbits g.desc 23 16 == head && wbits g.desc 39 24 ≤ ord
    && ord < wbits g.desc 39 24 + 256)).map (fun g => g.entries.getD (ord - wbits g.desc 39 24) 0)

/-- A page's check against the partition's ranges and the KV region (R398). -/
def State.pageCheck (s : State) (id : Nat) : Bool × Nat × W64 :=
  match s.dpaOfPage id with
  | none => (false, 0x0E, transInfo 7 3 (2 ^ 56 + id))
  | some dpa => ((s.part s.me.part).owns dpa (2 ^ 15) && s.served dpa, 0x0E, transInfo 7 3 dpa)

/-- A KV lookup (R229, R398): the page id and the TAG that its entry expects. -/
def State.kvLookup (s : State) (slot head ord : Nat) : Checked (Nat × W16) :=
  let info := kvInfo slot head ord
  match s.me.kvEntry s.tide slot head ord with
  | none => .error (0x10, info)
  | some e =>
    let id := wbits e 55 32
    match firstFault
        [(wbit e 63 && wbits e 62 56 == 0 && wbits e 15 0 == 0, 0x10, info),
         (id / 2 ^ 22 == dieOf s.cur.core, 0x11, info), s.pageCheck id] with
    | some f => .error f
    | none => .ok (id, BitVec.ofNat 16 (wbits e 31 16))

/-- The lookup of a selector. -/
def State.selected (s : State) (sel : W64) : Checked (Nat × W16) :=
  s.kvLookup (wbits sel 15 0) (wbits sel 23 16) (wbits sel 63 32)

/-- A destination marked pending, unless it is s0 (R303, R397). -/
def State.awaits (s : State) (d : Nat) : State := if d = 0 then s else s.markPending (.reg d)

/-- An offset in a core's own scratchpad that a pointer names, for `n` bytes aligned to 64 (R149,
R464): the pointer checks, the end of the scratchpad and of the private area, and the tags of ring slots (R134). -/
def Core.ownRegion (k : Core) (p : W64) (n : Nat) : Checked Nat :=
  match deref k p .own (fun a => a % 64 == 0) with
  | .ok (.scratch off) =>
    match spaceOf p with
    | .priv o => if k.privSize < o + n then .error (0x0F, protInfo 5 7 o) else tagged off
    | _ => if 2 ^ 22 < off + n then .error (0x0D, p) else tagged off
  | .ok _ => .error (0x0D, p)
  | .error f => .error f
where
  tagged (off : Nat) : Checked Nat :=
    match k.tagClash off n with
    | some info => .error (0x07, info)
    | none => .ok off

def execKva (_ : BitVec 3) (d b k : BitVec 5) (s : State) : Host.Outcome State Fault Refusal :=
  let sel := s.reg k
  .next (s.writing d (fun s => s.checked (s.me.ownRegion (s.reg b) 512) (fun off s =>
    s.guarded [(wbits sel 31 27 == 0, 0x10, selectorInfo sel)] (fun s =>
      s.checked (s.selected sel) (fun page s => s.withRoom 1 (fun s => s.exposing (fun s =>
        let n := s.fresh
        let s := s.near (page.1 / 2 ^ 21) (.kvAppend page.1 page.2 (wbit sel 26) (wbits sel 25 24) []
          (wbit s.me.hmode 3)) d.toNat [] 3
        (s.awaits d.toNat).post 3 (.kvaRead off n) (banksOf off 512))))))))

/-- The bits of sa that a page operation reads (R396). -/
def kvrBits (op : Nat) : Nat := if op = 2 then 24 else if op = 3 then 0 else 8

def execKvr (_ : BitVec 3) (d a k : BitVec 5) (o : BitVec 2) (s : State) :
    Host.Outcome State Fault Refusal :=
  let sel := s.reg k
  let arg := (s.reg a).toNat
  let op := o.toNat
  .next (s.writing d (fun s => s.guarded
      [(wbits sel 31 24 == 0, 0x10, selectorInfo sel),
       (decide (arg < 2 ^ kvrBits op), 0x10, selectorInfo sel)] (fun s =>
    s.checked (s.selected sel) (fun page s =>
      s.guarded (if op = 2 && arg != 0 then [s.pageCheck arg] else []) (fun s =>
        s.withRoom 1 (fun s =>
          let kind : MsgKind := match op with
            | 0 => .kvRescale page.1 page.2 false arg
            | 1 => .kvRescale page.1 page.2 true arg
            | 2 => .kvFork page.1 page.2 arg
            | _ => .kvRelease page.1 page.2
          (s.near (page.1 / 2 ^ 21) kind d.toNat).awaits d.toNat))))))

/-! ### Breakwater staging (R399) -/

/-- The contributor selector: group, contributor, tile, die. -/
def selGid (g : W64) : Nat := wbits g 11 0
def selCont (g : W64) : Nat := wbits g 15 12
def selTile (g : W64) : Nat := wbits g 23 16
def selStack (g : W64) : Nat := 2 * wbits g 25 24 + selGid g % 2

/-- The zero fields of a selector, bits 63:26 before TILE, with the position of the one that is not (R249). -/
def selectorCheck (g : W64) (tile : Bool) : Bool × Nat × W64 :=
  let high := wbits g 63 26 == 0
  (high && (tile || selTile g == 0), 0x18, w64 ((if high then 16 else 26) * 2 ^ 40 + selGid g * 256))

/-- The elements of a tile widened to FP32 (R240). -/
def Tile.widened (t : Tile) : List W32 :=
  (unpack (elemBits t.ty) (t.data.read 0 (elemBytes t.shape))).map (fun x =>
    BitVec.ofNat 32 (if t.ty = tBF16 then x * 2 ^ 16 else x))

def execBws (_ : BitVec 3) (r : BitVec 4) (g : BitVec 5) (s : State) :
    Host.Outcome State Fault Refusal :=
  let sel := s.reg g
  let t := s.me.tile r.toNat
  .next (s.guarded ([selectorCheck sel true] ++ s.me.tileChecks r.toNat ++
      [typeCheck (t.ty == tFP32 || t.ty == tBF16) 4 r.toNat t,
       typeCheck (t.rows * t.cols == 2048) 3 r.toNat t]) (fun s =>
    s.near (selStack sel) (.bws (selGid sel) (selCont sel) (selTile sel) t.widened s.myTask.run)))

def execBwc (_ : BitVec 3) (g : BitVec 5) (s : State) : Host.Outcome State Fault Refusal :=
  let sel := s.reg g
  .next (s.guarded [s.epilogueOnly, selectorCheck sel false] (fun s =>
    s.near (selStack sel) (.bwc (selGid sel) (selCont sel) s.myTask.run)))

def execBwa (_ : BitVec 3) (g : BitVec 5) (s : State) : Host.Outcome State Fault Refusal :=
  let sel := s.reg g
  .next (s.guarded [selectorCheck sel false] (fun s =>
    s.near (selStack sel) (.bwa (selGid sel) (selCont sel) s.myTask.run)))

/-! ### Descriptors of the X engine (R325, R328, R400) -/

/-- FINFO of a descriptor's 0x02 (R328). -/
def fieldInfo (word pos : Nat) : W64 := w64 (0xF * 2 ^ 60 + word % 128 * 2 ^ 53 + pos * 2 ^ 47)

/-- A field of a descriptor that must hold an accepted value. -/
def fieldCheck (word pos : Nat) (ok : Bool) : Bool × Nat × W64 := (ok, 0x02, fieldInfo word pos)

/-- Words of a descriptor that must be zero: `n` words from `first` on. -/
def zeroWords (ws : List W64) (first n : Nat) : List (Bool × Nat × W64) :=
  (List.range n).map (fun i => fieldCheck (first + i) 0 (ws.getD (first + i) 0 == 0))

/-- A descriptor of `n` bytes read at issue: pointer checks, then the checks of its words, each line a
use of its bank. -/
def State.descriptor (s : State) (p : W64) (n : Nat) (checks : List W64 → List (Bool × Nat × W64))
    (f : Nat → List W64 → State → State) : State :=
  s.checked (s.me.ownRegion p n) (fun off s =>
    let ws := words64 (n / 8) (s.me.scratch.read off n)
    s.guarded (checks ws) (fun s =>
      f off ws (s.modMe (fun k => { k with
        inflight := k.inflight ++ [
          { at_ := s.tide, eng := 7, ord := k.ord, op := .use, banks := banksOf off n
            exposed := false }] }))))

/-! ### Queries (R230, R401) -/

/-- Tokens that a page holds (R224), from the format's BF16 and DIM 64 bits. -/
def pageCapacity (bf dim64 : Bool) : Nat :=
  match bf, dim64 with
  | false, false => 128
  | false, true => 256
  | true, false => 64
  | true, true => 128

/-- The fields of a query record, and the pages in range. -/
def queryFirst (ws : List W64) : Nat := wbits (ws.getD 0 0) 63 32
def queryDim64 (ws : List W64) : Bool := wbit (ws.getD 0 0) 24
def queryCount (ws : List W64) : Nat := wbits (ws.getD 1 0) 31 0
def queryRing (ws : List W64) : Nat := wbits (ws.getD 2 0) 3 0
def queryPages (bf : Bool) (ws : List W64) : List Nat :=
  let c := pageCapacity bf (queryDim64 ws)
  let first := queryFirst ws / c
  (List.range ((queryFirst ws + queryCount ws - 1) / c + 1 - first)).map (fun i => first + i)

/-- Check 2 of R401. -/
def queryChecks (bf : Bool) (ws : List W64) : List (Bool × Nat × W64) :=
  [fieldCheck 0 25 (wbits (ws.getD 0 0) 31 25 == 0),
   fieldCheck 1 32 (wbits (ws.getD 1 0) 63 32 == 0),
   fieldCheck 1 0 (queryCount ws != 0 && decide (queryCount ws ≤ 2 ^ 16)
     && decide ((queryPages bf ws).length ≤ 256)),
   fieldCheck 2 4 (wbits (ws.getD 2 0) 63 4 == 0)] ++
  zeroWords ws 3 5 ++ (if queryDim64 ws then zeroWords ws 24 16 else [])

/-- Slots of a ring that reservations in flight will take. -/
def Core.reserving (k : Core) (n : Nat) : Nat :=
  ((k.inflight ++ k.captured).map (fun p =>
    match p.op with
    | .ringReserve r m _ _ => if r = n then m else 0
    | _ => 0)).sum

/-- Slots that can still be reserved (R165), those in flight taken. -/
def Core.freeSlots (k : Core) (n : Nat) : Nat :=
  (k.ring n).slots - ((k.ring n).rsv - (k.ring n).rel).toNat - k.reserving n

/-- Checks 3 and 4 of R401. -/
def Core.queryRingChecks (k : Core) (n pages : Nat) : List (Bool × Nat × W64) :=
  [(n != 15 && (k.ring n).enabled, 0x15, ringInfo n 6),
   (decide (576 ≤ (k.ring n).slotBytes) && decide (pages ≤ k.freeSlots n), 0x15, ringInfo n 1)]

/-- The lookups of ordinals, in ascending order. -/
def State.kvLookups (s : State) (slot head : Nat) : List Nat → Checked (List (Nat × W16))
  | [] => .ok []
  | o :: rest =>
    match s.kvLookup slot head o with
    | .error f => .error f
    | .ok p =>
      match s.kvLookups slot head rest with
      | .error f => .error f
      | .ok ps => .ok (p :: ps)

/-- One page scan of a query, posted. -/
def State.postScan (s : State) (bf : Bool) (ws : List W64) (q : List Byte) (query : Nat)
    (page : Nat × W16) (ordinal index : Nat) : State :=
  let (n, s) := s.number
  let (d, s) := s.later 1
  { s with scans := s.scans ++ [{
      id := n, core := s.cur.core, task := s.me.task.getD 0, page := page.1, tag := page.2
      tfirst := queryFirst ws, tcount := queryCount ws, ordinal := ordinal
      dim64 := queryDim64 ws, bf := bf, q := q, ring := queryRing ws, query := query
      index := index, due := d }] }

def execAqp (_ : BitVec 3) (a : BitVec 5) (b : BitVec 1) (s : State) :
    Host.Outcome State Fault Refusal :=
  let bf := b == 1
  .next (s.guarded [(!s.inEpilogue, 0x03, 0)] (fun s =>
    s.descriptor (s.reg a) 320 (queryChecks bf) (fun off ws s =>
      let pages := queryPages bf ws
      let q := s.me.scratch.read (off + 64) 256
      s.guarded (s.me.queryRingChecks (queryRing ws) pages.length) (fun s =>
        s.checked (s.kvLookups (wbits (ws.getD 0 0) 15 0) (wbits (ws.getD 0 0) 23 16) pages)
          (fun ps s => s.exposing (fun s =>
            let n := s.fresh
            ((ps.zip pages).zipIdx.foldl (fun s x => s.postScan bf ws q n x.1.1 x.1.2 x.2) s).post 1
              (.ringReserve (queryRing ws) ps.length 0 (some n))))))))

/-! ### KV segments (R402) -/

def execKvtl (_ : BitVec 3) (a : BitVec 5) (l : BitVec 1) (n : BitVec 4) (s : State) :
    Host.Outcome State Fault Refusal :=
  let i := n.toNat
  .next (s.checked (s.me.ownRegion (s.reg a) 2112) (fun off s =>
    let image := s.me.scratch.read off 2048
    let ws := words64 8 image
    s.guarded ([fieldCheck 0 40 (wbits (ws.getD 0 0) 63 40 == 0)] ++ zeroWords ws 1 7 ++
        [(!wbit (vget {} s.me.kvseg i).desc 62, 0x0F, protInfo 7 7 i)]) (fun s =>
      s.exposing (fun s =>
        (s.post 0 .use (banksOf off 2048)).post 1 (.kvBeat i (l == 1) (off + 2048) image)
          (banksOf (off + 2048) 64)))))

def execKvtu (_ : BitVec 3) (n : BitVec 4) (s : State) : Host.Outcome State Fault Refusal :=
  .next (s.exposing (fun s => s.post 1 (.kvUnlock n.toNat)))

/-! ### Groups and the optimiser step (R238, R252, R403, R404) -/

/-- A field of a BWO or OPTS descriptor (R249, R462). -/
def groupCheck (gid word pos : Nat) (ok : Bool) : Bool × Nat × W64 :=
  (ok, 0x18, w64 (pos * 2 ^ 40 + gid * 256 + word))

/-- A LIMIT that is neither negative nor −0.0 nor NaN. -/
def limitOk (l : Nat) : Bool := l ≤ 0x7F800000

/-- The descriptor checks of BWO. -/
def bwoChecks (ws : List W64) : List (Bool × Nat × W64) :=
  let w (i : Nat) : W64 := ws.getD i 0
  let check := groupCheck (wbits (w 0) 31 20)
  [check 0 32 (limitOk (wbits (w 0) 63 32)), check 0 0 (wbits (w 0) 7 0 == 0),
   check 1 0 ((w 1).toNat % 8192 == 0), check 2 0 ((w 2).toNat % 64 == 0),
   check 3 16 (wbits (w 3) 62 16 == 0), check 3 5 (wbits (w 3) 7 5 == 0)] ++
  [4, 5, 6, 7].map (fun i => check i 0 (w i == 0))

/-- The descriptor checks of OPTS. -/
def optsChecks (ws : List W64) : List (Bool × Nat × W64) :=
  let w (i : Nat) : W64 := ws.getD i 0
  let check := groupCheck (wbits (w 0) 63 52)
  [check 0 19 (wbits (w 0) 49 19 == 0)] ++
  [1, 2, 3, 4].map (fun i => check i 0 ((w i).toNat % 64 == 0)) ++
  [check 9 0 (wbits (w 9) 31 0 == 0), check 10 0 ((w 10).toNat % 32 == 0)] ++
  [11, 12, 13, 14, 15].map (fun i => check i 0 (w i == 0))

/-- An address with bits that no table covers cannot be translated (R238). -/
def globalCheck (p : W64) : Bool × Nat × W64 := (wbits p 63 57 == 0, 0x0E, transInfo 7 0 p.toNat)

/-- A range of bytes that must stay in the page of its first address (R238). -/
def spanCheck (t : TlbEntry) (va n : Nat) : Bool × Nat × W64 :=
  (decide (va + n ≤ t.va + t.size), 0x0F, protInfo 2 4 va)

/-- The DPA of an address of a TGT 0 page. -/
def TlbEntry.dpa (t : TlbEntry) (va : Nat) : Nat := t.frame + (va - t.va)

/-- Ranges each in one Shared page with TGT 0: their DPAs and their translation entries. -/
def State.spans (s : State) (n : Nat) (vas : List Nat) (f : List (Nat × Nat) → State → State) : State :=
  match vas with
  | [] => f [] s
  | va :: rest =>
    s.guarded [globalCheck (w64 va)] (fun s => s.translated [(va, .apply)] (fun ts s =>
      ts.foldl (fun _ t => s.guarded [spanCheck t va n] (fun s =>
        s.spans n rest (fun as => f ((t.dpa va, t.id) :: as)))) s))

/-- A completion record's address, in an Owned page with W 1: its target and its translation entry. -/
def State.completion (s : State) (p : W64) (f : Target → Nat → State → State) : State :=
  s.guarded [globalCheck p] (fun s => s.translated [(p.toNat, .store)] (fun ts s =>
    ts.foldl (fun _ t => f (t.target p.toNat) t.id s) s))

/-- A request to a breakwater unit, which uses translation entries until its record is written (R174). -/
def State.serve (s : State) (stack : Nat) (kind : MsgKind) (entries : List Nat) (reg : Nat := 0) : State :=
  let (n, s) := s.number
  (s.modMe (fun k => k.serve n entries)).send n stack kind reg

def execBwo (_ : BitVec 3) (a d : BitVec 5) (s : State) : Host.Outcome State Fault Refusal :=
  .next (s.writing d (fun s => s.descriptor (s.reg a) 64 bwoChecks (fun _ ws s => s.withRoom 1 (fun s =>
    let w (i : Nat) : W64 := ws.getD i 0
    s.spans ((wbits (w 0) 15 8 + 1) * 8192) [(w 1).toNat] (fun as s =>
      s.completion (w 2) (fun compl e s =>
        let dst := (as.map Prod.fst).headD 0
        let die := dst / 2 ^ 37
        (s.serve (2 * die + wbits (w 0) 31 20 % 2) (.groupOpen ws dst compl die) (as.map Prod.snd ++ [e])
          d.toNat).awaits d.toNat))))))

/-- The first array of G, M and V that lies on another die than W (R252). -/
def otherDie (ws : List W64) (as : List Nat) : Option W64 :=
  ((as.zipIdx.drop 1).find? (fun x => x.1 / 2 ^ 37 != as.headD 0 / 2 ^ 37)).map (fun x =>
    ws.getD (x.2 + 1) 0)

def execOpts (_ : BitVec 3) (a : BitVec 5) (s : State) : Host.Outcome State Fault Refusal :=
  .next (s.guarded [s.epilogueOnly] (fun s => s.descriptor (s.reg a) 128 optsChecks (fun _ ws s =>
    s.withRoom 1 (fun s =>
      let w (i : Nat) : W64 := ws.getD i 0
      s.spans (4 * (wbits (w 0) 18 0 + 1)) ([1, 2, 3, 4].map (fun i => (w i).toNat)) (fun xs s =>
        s.completion (w 10) (fun compl e s =>
          let as := xs.map Prod.fst
          let other := otherDie ws as
          s.guarded [(other.isNone, 0x0E, transInfo 7 4 (other.getD 0).toNat)] (fun s =>
            let die := as.headD 0 / 2 ^ 37
            s.serve (2 * die + wbits (w 0) 63 52 % 2) (.opts ws as compl die) (xs.map Prod.snd ++ [e]))))))))

end Sys2Proof.Machine
end

