-- ==== Sys2Proof/Machine/Sync.lean ====
section
/-!
DEFINITION. The words of the Y engine (spec/18_sync.md): fences, acquire loads and release stores,
atomics, locks, barriers, flags, rings, futures, spawns, RFENCE and SEND.
-/

namespace Sys2Proof.Machine

/-! ### Targets of the memory words (R409) -/

/-- The windows that a lock or future word admits: global and own cohort, aligned to the unit. -/
def Core.lockTarget (k : Core) (p : W64) (n : Nat) : Checked Deref :=
  match deref k p .all (fun a => a % n == 0) with
  | .ok (.value _ _) => .error (0x0F, protInfo 4 7 p.toNat)
  | .ok (.scratch a) => .error (0x0F, protInfo 1 7 a)
  | r => r

/-- An order that carries an acquire, a release (R195). -/
def acquires (o : BitVec 2) : Bool := o.getLsbD 0
def releases (o : BitVec 2) : Bool := o.getLsbD 1

/-! ### Releases and acquires outside global memory (R200 to R203) -/

/-- What a release of the core that is issuing covers: its earlier accesses that are not yet performed, and its
earlier acquires that still wait for what they observed (R203); near-memory requests apart (R411). -/
def Core.covered (k : Core) : List Nat :=
  (k.reqs.filter (fun r => r.op != .fence && r.op != .rfence)).map GReq.id

/-- Whether an agent's core lies in the instance of another core at a scope (R194). -/
def inScope (c : Nat) (t : Option Nat) (scope d : Nat) (u : Option Nat) : Bool :=
  match scope with
  | 0 => c == d
  | 1 => cohortOf c == cohortOf d
  | 2 => t.isSome && t == u
  | _ => true

/-- Whether an acquire of core d at a scope synchronises with a release (R200). -/
def Cover.reaches (v : Cover) (d : Nat) (u : Option Nat) (scope : Nat) : Bool :=
  inScope v.core v.task v.scope d u && inScope d u scope v.core v.task

/-- Whether two locations overlap; a flag at one value and at another do not, since the next signal does not continue
a release (R440). -/
def CoverKey.meets : CoverKey → CoverKey → Bool
  | .flag c f v, .flag d g w => c == d && f == g && v == w
  | .cohort a n, .cohort b m => a < b + m && b < a + n
  | _, _ => false

/-- The accesses that an acquire of a core waits for: those that the releases it synchronises with
cover. -/
def State.coveredBy (s : State) (key : CoverKey) (c scope : Nat) : List Nat :=
  (s.covers.filter (fun v => v.key.meets key && v.reaches c (s.core c).task scope)).flatMap Cover.ids

/-- A request of the word that is issuing that stands in core order and makes no access. -/
def State.marker (s : State) (op : GOp) (scope order : Nat) : State :=
  s.modMe (fun k => { k with reqs := k.reqs ++ [
    { id := s.fresh, issued := s.tide, eng := s.cur.eng, ord := k.ord, op := op, pieces := []
      scope := scope, order := order }] }) |> fun s => { s with fresh := s.fresh + 1 }

/-- Whether a core still awaits the acknowledgement of a near-memory request before a number (R207). -/
def Core.nearBefore (k : Core) (id : Nat) : Bool :=
  k.near.any (fun r => !r.acked && r.task == k.task && decide (r.id < id))

/-- The error that acknowledgements have brought for requests before a number. -/
def Core.badAck (k : Core) (before : Nat) : Option (Byte × W64) :=
  (k.near.filter (fun r => r.acked && decide (r.id < before))).findSome? NearReq.error

/-- The fault of an error acknowledgement, raised at the release or the RFENCE that has waited for it (R207): one of
the requests before its number. -/
def State.releaseErrors (s : State) (c before stop : Nat) : State :=
  match (s.core c).badAck before with
  | some (code, info) =>
    (s.modCore c (fun k => { k with near := k.near.filter (fun r => !(r.acked && decide (r.id < before))) }))
      |>.raise c 6 false code.toNat info stop
  | none => s

/-- The error acknowledgements that a word meets as it issues: a timed release at device or system scope, an RFENCE
with nothing to wait for, a SPAWN. -/
def State.meetErrors (s : State) (c : Nat) : State := s.releaseErrors c s.fresh (s.tide + 1)
def State.timedRelease (s : State) (scope : Nat) (rel : Bool) : State :=
  if rel && 3 ≤ scope then s.meetErrors s.cur.core else s

/-! ### Timed accesses (R410) -/

/-- Bytes of a unit at a place, as a location that carries releases. -/
def Place.key (p : Place) (n : Nat) : Option CoverKey :=
  match p with
  | .cohort a => some (.cohort a n)
  | _ => none

/-- The acquire of a timed load of cohort memory. -/
def State.timedAcquire (s : State) (p : Place) (n off scope : Nat) (acq : Bool) : State :=
  match p.key n with
  | some key =>
    if acq then
      let req := s.fresh
      (s.marker (.acquired false []) scope 1).post off (.acquire key scope req)
    else s
  | none => s

/-- The release of a timed store of cohort memory. -/
def State.releaseAt (s : State) (p : Place) (n off scope : Nat) (rel : Bool) : State :=
  match p.key n with
  | some key => if rel then s.post off (.release key scope s.me.covered) else s
  | none => s

/-- The cohort access and the tide of a timed access of a Y word. -/
def State.yUse (s : State) (p : Place) (n off : Nat) (op : POp) : State :=
  match p with
  | .scratch a => s.post off op (banksOf a n)
  | _ => (s.cohortUse 0).post 12 op

/-- The offset of a timed access of a Y word. -/
def yOffset (p : Place) (off : Nat) : Nat :=
  match p with
  | .scratch _ => off
  | _ => 12

/-- A timed atomic. -/
def State.timedRmw (s : State) (d : Nat) (p : Place) (n : Nat) (op : Rmw) (ptr : W64) (scope : Nat)
    (o : BitVec 2) : State :=
  s.exposing (fun s =>
    let s := s.timedRelease scope (releases o)
    let rel := if releases o then some (scope, s.me.covered) else none
    match p.key n with
    | some _ =>
      if acquires o then
        let req := s.fresh
        (s.marker (.acquired false []) scope 1).yUse p n 4 (.rmw d p op ptr ⟨some (scope, req), rel⟩)
      else s.yUse p n 4 (.rmw d p op ptr ⟨none, rel⟩)
    | none => s.yUse p n 4 (.rmw d p op ptr {}))

/-- An atomic at a target that its word admits. It reads scratchpad, so a ring slot there is checked (R134). -/
def State.atomicAt (s : State) (t : Deref) (d n : Nat) (op : Rmw) (ptr : W64) (scope : Nat)
    (o : BitVec 2) : State :=
  match t with
  | .global va => s.globalAccess .atomic va n (.rmw d op ptr) (regMark d) scope o.toNat
  | .scratch a => s.guarded [s.me.slotCheck a n] (fun s => s.timedRmw d (.scratch a) n op ptr scope o)
  | .cohort a => s.timedRmw d (placeOf s.cur.core 2 a) n op ptr scope o
  | .value _ _ => s

/-! ### Fences, acquire loads, release stores (R412, R413) -/

def execFence (_ : BitVec 3) (c : BitVec 3) (o : BitVec 2) (s : State) :
    Host.Outcome State Fault Refusal :=
  .next (s.marker .fence c.toNat o.toNat)

/-- A timed acquire load. -/
def State.timedLdaq (s : State) (p : Place) (n : Nat) (op : POp) (scope : Nat)
    (o : BitVec 2) : State :=
  s.exposing (fun s =>
    (s.yUse p n 3 op).timedAcquire p n (yOffset p 3) scope (acquires o))

def execLdaq (_ : BitVec 3) (d a : BitVec 5) (g : BitVec 1) (z : BitVec 2) (c : BitVec 3)
    (o : BitVec 2) (s : State) : Host.Outcome State Fault Refusal :=
  let p := s.reg a
  let n := sizeOf z
  let sx := g == 1
  let r := d.toNat
  .next (s.writing d (fun s => s.checked (deref s.me p .all (fun x => aligned x n)) (fun t s =>
    match t with
    | .global va => s.globalAccess .load va n (.load r n sx) (regMark r) c.toNat o.toNat
    | .scratch x => s.guarded [s.me.slotCheck x n] (fun s =>
        s.timedLdaq (.scratch x) n (.load r (.scratch x) n sx) c.toNat o)
    | .cohort x =>
      let at_ := placeOf s.cur.core 2 x
      s.timedLdaq at_ n (.load r at_ n sx) c.toNat o
    | .value _ _ => s.checked (s.me.resolve p) (fun v s =>
        s.timedLdaq (.scratch (s.me.blockAddr v)) n (.loadValue r p 0 n sx) c.toNat o))))

/-- A timed release store. -/
def State.timedStrl (s : State) (p : Place) (bs : List Byte) (scope : Nat) (o : BitVec 2) : State :=
  s.exposing (fun s =>
    ((s.timedRelease scope (releases o)).yUse p bs.length 4 (.store p bs)).releaseAt p bs.length 12
      scope (releases o))

def execStrl (_ : BitVec 3) (z : BitVec 2) (a b : BitVec 5) (c : BitVec 3) (o : BitVec 2) (s : State) :
    Host.Outcome State Fault Refusal :=
  let bs := bytesOfNat (sizeOf z) (s.reg b).toNat
  .next (s.checked (s.me.storeTarget (s.reg a) (sizeOf z)) (fun t s =>
    match t with
    | .global va => s.globalAccess .store va bs.length (.store bs) none c.toNat o.toNat
    | .scratch x => s.timedStrl (.scratch x) bs c.toNat o
    | .cohort x => s.timedStrl (placeOf s.cur.core 2 x) bs c.toNat o
    | .value _ _ => s))

/-! ### Atomics and compare-and-swap (R414, R415) -/

def execAtom (_ : BitVec 3) (d a : BitVec 5) (w : BitVec 1) (p : BitVec 4) (c : BitVec 3) (o : BitVec 2)
    (s : State) : Host.Outcome State Fault Refusal :=
  let n := if w = 1 then 4 else 8
  .next (s.writing d (fun s => s.checked (s.me.storeTarget (s.reg a) n) (fun t s =>
    s.atomicAt t d.toNat n (.atom p.toNat (w == 1) (s.reg d)) (s.reg a) c.toNat o)))

def execCas (_ : BitVec 3) (d a b : BitVec 5) (c : BitVec 3) (o : BitVec 2) (s : State) :
    Host.Outcome State Fault Refusal :=
  .next (s.writing d (fun s => s.checked (s.me.storeTarget (s.reg a) 8) (fun t s =>
    s.atomicAt t d.toNat 8 (.cas (s.reg d) (s.reg b)) (s.reg a) c.toNat o)))

/-! ### Locks and futures (R416, R417, R425, R426) -/

/-- The unit of a gate-class memory word: checked and translated, its entry held. -/
def State.lockUnit (s : State) (p : W64) (n : Nat) (a : Access) (f : LockAt → State → State) : State :=
  s.checked (s.me.lockTarget p n) (fun t s =>
    match t with
    | .global va => s.withEntries [(va, a)] (fun es s =>
        es.foldl (fun s e => f (.global va (e.target va) e.id) (s.modMe (·.holdEntries [e.id]))) s)
    | .cohort x => f (.cohort (cohortOf s.cur.core * 2 ^ 23 + x)) s
    | _ => s)

def execRlk (_ : BitVec 3) (a : BitVec 5) (c : BitVec 3) (o : BitVec 2) (s : State) :
    Host.Outcome State Fault Refusal :=
  .next (s.guarded s.gateChecks (fun s =>
    s.lockUnit (s.reg a) 8 .atomic (fun u s => s.setGate (.rlk u c.toNat o.toNat))))

def execWlk (_ : BitVec 3) (a : BitVec 5) (c : BitVec 3) (o : BitVec 2) (s : State) :
    Host.Outcome State Fault Refusal :=
  .next (s.guarded s.gateChecks (fun s =>
    s.lockUnit (s.reg a) 8 .atomic (fun u s => s.setGate (.wlk u c.toNat o.toNat))))

def execRul (_ : BitVec 3) (a : BitVec 5) (c : BitVec 3) (o : BitVec 2) (s : State) :
    Host.Outcome State Fault Refusal :=
  .next (s.checked (s.me.lockTarget (s.reg a) 8) (fun t s =>
    s.atomicAt t 0 8 .rul (s.reg a) c.toNat o))

def execWul (_ : BitVec 3) (a : BitVec 5) (c : BitVec 3) (o : BitVec 2) (s : State) :
    Host.Outcome State Fault Refusal :=
  .next (s.checked (s.me.lockTarget (s.reg a) 8) (fun t s =>
    s.atomicAt t 0 8 .wul (s.reg a) c.toNat o))

def execFill (_ : BitVec 3) (a b : BitVec 5) (c : BitVec 3) (o : BitVec 2) (s : State) :
    Host.Outcome State Fault Refusal :=
  .next (s.checked (s.me.lockTarget (s.reg a) 16) (fun t s =>
    s.atomicAt t 0 16 (.fill (s.reg b)) (s.reg a) c.toNat o))

def execTake (_ : BitVec 3) (d a : BitVec 5) (c : BitVec 3) (o : BitVec 2) (s : State) :
    Host.Outcome State Fault Refusal :=
  .next (s.writing d (fun s => s.guarded s.gateChecks (fun s =>
    s.lockUnit (s.reg a) 16 .atomic (fun u s => s.setGate (.take d.toNat u c.toNat o.toNat)))))

/-! ### Barriers (R419) -/

/-- The cores of the issuing core's gang. -/
def State.gangSize (s : State) : Nat := s.myTask.cores.length

/-- The cores that a BAR's register names, as gang core indices. -/
def barSet (s : State) (v : W64) : Nat × Nat :=
  if wbit v 16 then (wbits v 7 0, wbits v 15 8) else (0, s.gangSize - 1)

def execBar (_ : BitVec 3) (a : BitVec 5) (c : BitVec 3) (o : BitVec 2) (s : State) :
    Host.Outcome State Fault Refusal :=
  let v := s.reg a
  let set := barSet s v
  .next (s.guarded (s.gateChecks ++
      [s.shapeCheck (wbit v 16 || wbits v 15 0 == 0),
       s.shapeCheck (set.1 ≤ set.2 && set.2 < s.gangSize && set.1 ≤ s.me.gidx && s.me.gidx ≤ set.2)])
    (fun s => s.setGate (.bar (some set) c.toNat o.toNat)))

/-! ### Flags (R420 to R422) -/

/-- Whether a sequence reaches a target (R420). -/
def reaches (seq target : W32) : Bool := (seq - target).toNat < 2 ^ 31

/-- The cohorts of a partition in ascending physical id (R52, R61). -/
def Partition.cohorts (p : Partition) : List Nat :=
  (List.range 32).filter (fun c => p.pcoh.getLsbD c)

/-- The physical core of a virtual core id (R52). -/
def State.physical (s : State) (p vid : Nat) : Option Nat :=
  ((s.part p).cohorts[cohortOf vid]?).map (fun c => coreAt c (cohortPos vid))

/-- The virtual core id of a physical core (R52). -/
def State.virtual (s : State) (p c : Nat) : Option Nat :=
  ((s.part p).cohorts.idxOf? (cohortOf c)).map (fun v => coreAt v (cohortPos c))

/-- A message put on its way. -/
def State.flit (s : State) (due : Nat) (task : Option Nat) (legs : List (Nat × Nat)) (kind : FlitKind) :
    State :=
  { s with flits := s.flits ++ [⟨s.fresh, due, task, legs, kind⟩], fresh := s.fresh + 1 }

/-- The release that a signal carries; the value of its flag is known as it arrives. -/
def State.signalCover (s : State) (c f scope : Nat) (o : BitVec 2) : Option Cover :=
  if releases o then some ⟨.flag c f 0, s.cur.core, s.me.task, scope, s.me.covered⟩ else none

/-- SIGF to a core. -/
def State.signalTo (s : State) (c f scope : Nat) (o : BitVec 2) : State :=
  if c = s.cur.core then s.exposing (fun s =>
    let s := (s.timedRelease scope (releases o)).post 1 (.signal f)
    if releases o then s.post 1 (.release (.flag c f 0) scope s.me.covered) else s)
  else if s.myTask.cores.contains c then
    let s := s.timedRelease scope (releases o)
    s.flit (s.tide + 8) s.me.task (dieLegs (dieOf s.cur.core) (dieOf c))
      (.signal c f s.me.part (s.signalCover c f scope o))
  else s.withRoom 1 (fun s => s.request (.signal c f) [] [] scope o.toNat)

def execSigf (_ : BitVec 3) (f a : BitVec 5) (c : BitVec 3) (o : BitVec 2) (s : State) :
    Host.Outcome State Fault Refusal :=
  let v := s.reg a
  let target := if wbit v 8 then s.physical s.me.part (wbits v 7 0) else some s.cur.core
  .next (s.guarded [(target.isSome, 0x0C, v)] (fun s =>
    s.signalTo (target.getD 0) f.toNat c.toNat o))

/-- The signals that a core's own setters still owe a flag (R422). -/
def Core.owed (k : Core) (f : Nat) : Nat :=
  (k.inflight ++ k.captured).countP (fun p => p.op == .signal f) +
  k.cmds.countP (fun c => c.slot.isNone && wbit (c.words.getD 8 0) (32 + f))

def execWaitf (_ : BitVec 3) (f a : BitVec 5) (c : BitVec 3) (o : BitVec 2) (s : State) :
    Host.Outcome State Fault Refusal :=
  let v := s.reg a
  let n := f.toNat
  let target : W32 := v.setWidth 32
  let ok := wbit v 32 || s.me.chains.toList.any Chain.run
    || reaches (s.me.flag n + BitVec.ofNat 32 (s.me.owed n)) target
  .next (s.guarded (s.gateChecks ++ [(ok, 0x0B, w64 (n * 2 ^ 32 + target.toNat))]) (fun s =>
    s.setGate (.waitf n target c.toNat o.toNat)))

/-! ### Rings (R423, R424) -/

/-- The privilege and the enable of a ring word. -/
def State.ringChecks (s : State) (n : Nat) : List (Bool × Nat × W64) :=
  [(!s.inEpilogue, 0x03, 0), ((s.me.ring n).enabled, 0x15, ringInfo n 6)]

/-- A position in a half-open interval of counts (R423). -/
def within (p lo hi : W32) : Bool := (p - lo).toNat < (hi - lo).toNat

def execRres (_ : BitVec 3) (d : BitVec 5) (k : BitVec 4) (s : State) :
    Host.Outcome State Fault Refusal :=
  .next (s.writing d (fun s => s.guarded (s.ringChecks k.toNat) (fun s => s.exposing (fun s =>
    s.post 1 (.ringReserve k.toNat 1 d.toNat none)))))

def execRpub (_ : BitVec 3) (a : BitVec 5) (k : BitVec 4) (s : State) :
    Host.Outcome State Fault Refusal :=
  let p : W32 := (s.reg a).setWidth 32
  let r := s.me.ring k.toNat
  .next (s.guarded (s.ringChecks k.toNat ++
      [(within p r.pub r.rsv && !r.published.contains p, 0x15, ringInfo k.toNat 2)]) (fun s =>
    s.exposing (fun s => s.post 1 (.ringPublish k.toNat p))))

def execRrel (_ : BitVec 3) (a : BitVec 5) (k : BitVec 4) (s : State) :
    Host.Outcome State Fault Refusal :=
  let p : W32 := (s.reg a).setWidth 32
  let r := s.me.ring k.toNat
  .next (s.guarded (s.ringChecks k.toNat ++
      [(within p r.rel r.con && !r.released.contains p, 0x15, ringInfo k.toNat 4)]) (fun s =>
    s.exposing (fun s => s.post 1 (.ringRelease k.toNat p))))

def execRcon (_ : BitVec 3) (d : BitVec 5) (k : BitVec 4) (s : State) :
    Host.Outcome State Fault Refusal :=
  let n := k.toNat
  .next (s.writing d (fun s => s.guarded (s.gateChecks ++ s.ringChecks n ++
      [((s.me.ring n).mread == 0, 0x15, ringInfo n 3)]) (fun s => s.setGate (.rcon d.toNat n))))

/-! ### Spawns and the reduction fence (R427, R428) -/

def execSpawn (_ : BitVec 3) (d a b : BitVec 5) (s : State) : Host.Outcome State Fault Refusal :=
  .next (s.writing d (fun s => s.checked (s.me.ownRegion (s.reg a) 64) (fun off s =>
    s.withRoom 1 (fun s => s.exposing (fun s =>
      let n := s.fresh
      ((s.request (.spawn d.toNat (s.reg b) []) [] [] 3 2).awaits d.toNat).post 3 (.spawnRead n off)
        (banksOf off 64))))))

/-- Near-memory requests that await their acknowledgements. -/
def Core.nearPending (k : Core) : Bool := k.near.any (fun r => !r.acked && r.task == k.task)

def execRfence (_ : BitVec 3) (s : State) : Host.Outcome State Fault Refusal :=
  .next (if s.me.nearPending then s.marker .rfence 4 0 else s.meetErrors s.cur.core)

/-! ### Sending tiles (R429, R430) -/

/-- A step of a route: the place it ends in, as die and row and column, or none where it leaves the
package. North is row 0 and west column 0; the dies stand 0 and 1 above 2 and 3. -/
def hop (x y dir : Nat) : Option (Nat × Nat) :=
  match dir with
  | 0 => if y = 0 then none else some (x, y - 1)
  | 1 => if x = 15 then none else some (x + 1, y)
  | 2 => if y = 15 then none else some (x, y + 1)
  | _ => if x = 0 then none else some (x - 1, y)

/-- The die and the core at a place of the sixteen by sixteen cores of the package. -/
def dieAt (x y : Nat) : Nat := y / 8 * 2 + x / 8
def coreAtXY (x y : Nat) : Nat := dieAt x y * 64 + y % 8 * 8 + x % 8

/-- The direction after a turn: straight, left, right. -/
def turned (dir turn : Nat) : Nat :=
  if turn = 1 then (dir + 3) % 4 else if turn = 2 then (dir + 1) % 4 else dir

/-- A route as the hops before its first crossing and the crossings with the hops after each, in tc;
the core where it stops; and whether it left the package. -/
structure Route where
  before : Nat := 0
  legs : List (Nat × Nat) := []
  stop : Nat := 0
  left : Bool := false
  deriving DecidableEq, Repr

/-- A route with one hop more. -/
def Route.step (r : Route) (d e : Nat) : Route :=
  if d ≠ e then { r with legs := r.legs ++ [(d * 4 + e, 0)] }
  else
    match r.legs.getLast? with
    | none => { r with before := r.before + 2 }
    | some l => { r with legs := r.legs.dropLast ++ [(l.1, l.2 + 2)] }

/-- A route followed from a place. -/
def follow (x y dir : Nat) (r : Route) : List Nat → Route
  | [] => { r with stop := coreAtXY x y }
  | turn :: rest =>
    match hop x y dir with
    | none => { r with stop := coreAtXY x y, left := true }
    | some (x', y') =>
      let r := r.step (dieAt x y) (dieAt x' y')
      if turn = 3 then { r with stop := coreAtXY x' y' } else follow x' y' (turned dir turn) r rest

/-- The route of a SEND from a core. -/
def routeFrom (c heading : Nat) (turns : List Nat) : Route :=
  follow (dieOf c % 2 * 8 + c % 8) (dieOf c / 2 * 8 + c / 8 % 8) heading {} turns

/-- Operand bits of a word (R429). -/
def operandBits (q : QWord) : Nat := q.word.toNat % 2 ^ 20

def execSend (_ : BitVec 3) (t : BitVec 4) (h j k l m n o p : BitVec 2) (s : State) :
    Host.Outcome State Fault Refusal :=
  let r := routeFrom s.cur.core h.toNat [j.toNat, k.toNat, l.toNat, m.toNat, n.toNat, o.toNat, p.toNat]
  let info := w64 (operandBits s.cur.q + r.stop * 2 ^ 32 + (if r.left then 2 ^ 40 else 0))
  let image := (s.me.tile t.toNat).image
  let count := (image.length + 255) / 256
  .next (s.guarded ([s.noHandler] ++ s.me.tileChecks t.toNat ++
      [(!r.left && s.myTask.cores.contains r.stop, 0x0C, info)]) (fun s =>
    let id := s.fresh
    (List.range count).foldl (fun s i =>
      s.flit (s.tide + 4 + i / 2 + r.before) s.me.task r.legs
        (.tile id s.cur.core r.stop i count (if i = 0 then image else []))) s))

end Sys2Proof.Machine
end

