-- ==== Sys2Proof/Machine/System.lean ====
section
/-!
DEFINITION. The words of the X engine (R319 to R335): status registers, TRAP and RETH, the format
queue, engine commands and chains, tide alignment, and checkpoints.
-/

namespace Sys2Proof.Machine

/-! ### Status registers (R319 to R321) -/

/-- KSTAT (R165). -/
def Ring.kstat (r : Ring) : W64 :=
  w64 ((if r.ckd then 2 ^ 63 else 0) + (if r.enabled then 2 ^ 62 else 0) +
    r.free % 512 * 2 ^ 41 + r.filled % 512 * 2 ^ 32 +
    r.con.toNat / r.slots % 2 ^ 16 * 2 ^ 16 + r.con.toNat % 2 ^ 16)

/-- CHSTAT (R320). -/
def Chain.chstat (c : Chain) : W64 :=
  w64 ((if c.run then 2 ^ 63 else 0) + (if c.err then 2 ^ 62 else 0) + (if c.lnk then 2 ^ 61 else 0) +
    c.done.toNat)

/-- The registers of single numbers. -/
def Core.csrSingle (k : Core) (tide n : Nat) : W64 :=
  match n with
  | 0x00 => w64 tide
  | 0x01 => w64 k.tbase
  | 0x02 => w64 k.slip
  | 0x03 => k.hmode
  | 0x04 => w64 (k.part % 32)
  | 0x05 => w64 (k.gidx % 256 * 256 + k.vid % 256)
  | 0x08 => k.fcause
  | 0x09 => k.finfo
  | 0x18 => k.trapvec
  | 0x19 => k.tsave
  | 0x1A => k.parea
  | 0x1B => w64 (k.vheap.toNat + k.freeBlocks * 2 ^ 48)
  | 0x20 => k.fflags.setWidth 64
  | 0x21 => k.sr.seed
  | 0x22 => k.sr.step.setWidth 64
  | 0x23 => k.sr.tid.setWidth 64
  | 0x24 => k.sr.pos
  | _ => 0

/-- A status register as CSRR reads it at a tide; KSTAT it reads one tc later (R165). -/
def Core.csrRead (k : Core) (tide n : Nat) : W64 :=
  if 0x10 ≤ n && n ≤ 0x17 then vget 0 k.ffr (n - 0x10)
  else if n / 16 = 4 then (k.tile (n % 16)).tshape
  else if n / 16 = 8 then (k.ring (n % 16)).cfg
  else if n / 16 = 9 then (k.ring (n % 16)).kstat
  else if n / 16 = 10 then (vget {} k.chains (n % 16)).chstat
  else k.csrSingle tide n

def execCsrr (_ : BitVec 3) (d : BitVec 5) (n : BitVec 15) (s : State) :
    Host.Outcome State Fault Refusal :=
  .next (if n.toNat / 16 = 9 then s.writing d (fun s => s.exposing (fun s => s.post 1 (.kstat d.toNat (n.toNat % 16))))
    else s.scalar d 1 (s.me.csrRead s.tide n.toNat))

/-- The bits of a register that a write changes: its RW fields, or for FLAGS its W1C bits. -/
def csrMask (n : Nat) : W64 :=
  match n with
  | 0x18 => 0x80003FFF
  | 0x19 => 0x803E0000
  | 0x1A => 0x01FF03FF
  | 0x1B => 0x07FF03FF
  | 0x20 => 0xFFFFF
  | 0x21 => 0xFFFFFFFFFFFFFFFF
  | 0x22 => 0xFFFFFFFF
  | 0x23 => 0xFFFFFFFF
  | 0x24 => 0xFFFFFFFFFFFFC000
  | _ =>
    if n / 16 = 4 then 0x00007F00F0007F7F
    else if n / 16 = 8 then 0xFFFFFFFFC001FFFF
    else 0

/-- Whether the bytes of two regions overlap. -/
def overlap (a n b m : Nat) : Bool := n != 0 && m != 0 && a < b + m && b < a + n

/-- The check of a VHEAP value (R178). -/
def Core.vheapCheck (k : Core) (v : W64) : Bool × Nat × W64 :=
  let base := wbits v 9 0
  let size := wbits v 26 16
  (size ≤ 1024 && base + size ≤ 1024
    && !(List.range 16).any (fun n => (k.ring n).enabled
      && overlap (base * 4096) (size * 4096) (k.ring n).base (k.ring n).bytes)
    && k.blocks.all (fun e => e.2.state == .free) && k.reuse.isNone, 0x12, w64 (2 ^ 61))

/-- A ring as configured by a word. -/
def ringAs (v : W64) : Ring := { cfg := v }

/-- The checks of a KCFG value (R162). -/
def Core.ringCheck (k : Core) (n : Nat) (v : W64) : Bool × Nat × W64 :=
  let r := ringAs (v &&& csrMask (0x80 + n))
  (!r.enabled ||
    (r.base + r.bytes ≤ 2 ^ 22
      && !(List.range 16).any (fun m => m != n && (k.ring m).enabled
        && overlap r.base r.bytes (k.ring m).base (k.ring m).bytes)
      && !overlap r.base r.bytes k.heapBase (k.heapBlocks * 4096)
      && !((k.ring n).enabled && (k.ring n).rsv != (k.ring n).rel)), 0x15, ringInfo n 0)

/-- The shape word of a TSHAPE value, its reserved bits ignored (R7, R337, R339). -/
def tshapeWord (v : W64) : W32 := v.setWidth 32 &&& 0xF0007F7F

/-- The checks of a TSHAPE value (R339), the shape's unless the tile has it already. -/
def Core.tshapeChecks (k : Core) (n : Nat) (v : W64) : List (Bool × Nat × W64) :=
  let w := tshapeWord v
  [k.absentCheck n,
   k.shapeCheck ((k.tile n).c && (k.tile n).shape == w || shapeOk w) n w,
   typeCheck (decide (wbits v 46 40 < shapeRows w)) 2 n (k.tile n) (wbits v 46 40)]

/-- The checks of a CSRW (R321). -/
def Core.csrChecks (k : Core) (n : Nat) (v : W64) : List (Bool × Nat × W64) :=
  let setting := protInfo 6 7 n
  [(csrMask n != 0, 0x03, 0)] ++
  (if n = 0x19 then [(!(wbit v 31 && wbits v 21 17 == 31), 0x0F, setting)]
   else if n = 0x1A then
    [(wbits v 24 16 ≤ 256 && (wbits v 9 0 + wbits v 24 16) * 4096 ≤ 2 ^ 22, 0x0F, setting)]
   else if n = 0x1B then [k.vheapCheck v]
   else if n / 16 = 4 then k.tshapeChecks (n % 16) v
   else if n / 16 = 8 then [k.ringCheck (n % 16) v]
   else [])

def execCsrw (_ : BitVec 3) (a : BitVec 5) (n : BitVec 15) (s : State) :
    Host.Outcome State Fault Refusal :=
  let v := s.reg a
  .next (s.guarded (s.me.csrChecks n.toNat v) (fun s =>
    s.exposing (fun s => s.post 1 (.csr n.toNat v))))

/-- TSHAPE written (R339). -/
def Core.writeTshape (k : Core) (n : Nat) (v : W64) : Core :=
  let w := tshapeWord v
  let t := k.tile n
  let t := if t.c && t.shape == w then t else t.configured w
  k.setTile n { t with cur := wbits v 46 40 }

/-- A ring configured (R162): the counts and CKD zero; a write with EN 0 cancels reservations. The M read point moves
only as a word issues and as one retires (R367). -/
def Ring.configured (r : Ring) (v : W64) : Ring :=
  { cfg := v, mread := r.mread, gen := if wbit v 16 then r.gen else r.gen + 1 }

/-- A CSRW performed (R321). -/
def Core.csrWrite (k : Core) (n : Nat) (v : W64) : Core :=
  let m := v &&& csrMask n
  if n / 16 = 4 then k.writeTshape (n % 16) v
  else if n / 16 = 8 then k.setRing (n % 16) ((k.ring (n % 16)).configured m)
  else
    match n with
    | 0x18 => { k with trapvec := m }
    | 0x19 => { k with tsave := m }
    | 0x1A => { k with parea := m }
    | 0x1B => k.freshHeap m
    | 0x20 => { k with fflags := clearFlags k.fflags v }
    | 0x21 => { k with sr := { k.sr with seed := m } }
    | 0x22 => { k with sr := { k.sr with step := m.setWidth 32 } }
    | 0x23 => { k with sr := { k.sr with tid := m.setWidth 32 } }
    | 0x24 => { k with sr := { k.sr with pos := m } }
    | _ => k

/-! ### Traps and resume (R322, R323) -/

def execTrap (_ : BitVec 3) (m : BitVec 15) (s : State) : Host.Outcome State Fault Refusal :=
  .next (s.raise s.cur.core 7 true 0x1A (w64 m.toNat) (s.tide + 1))

/-- The tile state of a core whose handler ends (R145). -/
def Tile.returned (t : Tile) : Tile :=
  match t.ret with
  | some (shape, cur, z) =>
    { t with c := true, d := false, z := z, a := true, cur := cur, shape := shape, held := false
             ret := none }
  | none => { t with held := false }

/-- The cores of a gang that faulted themselves and have yet to run their handlers, the lowest virtual
id first (R142). -/
def State.handlersLeft (s : State) (k : Task) (st : Stop) : Option Nat :=
  (k.cores.filter (fun c => (s.core c).ownFault && !st.handlers.contains c)).foldl (fun m c =>
    match m with
    | none => some c
    | some d => if (s.core c).vid < (s.core d).vid then some c else some d) none

/-- A handler's end: the kernel's streams stand again. -/
def Core.leaveHandler (k : Core) : Core :=
  { k with
    mode := .frozen
    tbase := k.kbase
    stream := k.saved.getD {}
    saved := none
    tiles := k.tiles.map Tile.returned }

/-- RETH of a core's handler with a resume tide. -/
def State.returnHandler (s : State) (c tr : Nat) : State :=
  let s := s.modCore c Core.leaveHandler
  match (s.core c).task, s.taskOf c with
  | some t, some k =>
    match k.stop with
    | some st =>
      if (s.handlersLeft k st).isSome then { s with now := s.now ++ [.event (.handlerStart t) 0] }
      else
        let at_ := Nat.max tr (s.tide + k.d)
        let s := (s.tellDies c k.cores).modCores k.cores (fun x => { x with fcause := setBits x.fcause 63 63 0 })
        (s.setTask t { k with stop := some { st with resume := some at_ } }).due at_ (.gangResume t) 0
    | none => s
  | _, _ => s

def execReth (_ : BitVec 3) (a : BitVec 5) (s : State) : Host.Outcome State Fault Refusal :=
  .next (s.guarded [(s.inHandler, 0x03, 0)] (fun s =>
    s.returnHandler s.cur.core (s.reg a).toNat))

/-! ### The format queue (R324) -/

def execFmtw (_ : BitVec 3) (a : BitVec 5) (s : State) : Host.Outcome State Fault Refusal :=
  .next (s.exposing (fun s => s.post 1 (.fmtPush (s.reg a))))

/-! ### Engine commands and chains (R326 to R330) -/

def cmdKind (ws : List W64) : Nat := wbits (ws.getD 0 0) 63 56
def cmdStype (ws : List W64) : Nat := wbits (ws.getD 0 0) 55 52
def cmdDtype (ws : List W64) : Nat := wbits (ws.getD 0 0) 51 48
def cmdMode (ws : List W64) : Nat := wbits (ws.getD 0 0) 47 45
def cmdSat (ws : List W64) : Bool := wbit (ws.getD 0 0) 44
def cmdRing (ws : List W64) : Nat := wbits (ws.getD 0 0) 43 40
def cmdRole (ws : List W64) : Nat := wbits (ws.getD 0 0) 39 38
def cmdStart (ws : List W64) : Nat := wbits (ws.getD 0 0) 31 0
def cmdSrc (ws : List W64) : W64 := ws.getD 1 0
def cmdDst (ws : List W64) : W64 := ws.getD 2 0
def cmdCompl (ws : List W64) : W64 := ws.getD 9 0
def cmdRep (ws : List W64) : Nat := wbits (ws.getD 11 0) 63 48

/-- An element type that a command moves. -/
def cmdType (t : Nat) : Bool := t != 5 && t != 6

/-- The reserved fields and codes of a command or a chain entry (R326, R462). -/
def commandChecks (chain : Bool) (ws : List W64) : List (Bool × Nat × W64) :=
  let w (i : Nat) : W64 := ws.getD i 0
  [fieldCheck 0 56 (1 ≤ cmdKind ws && cmdKind ws ≤ 3),
   fieldCheck 0 52 (cmdType (cmdStype ws)),
   fieldCheck 0 48 (cmdType (cmdDtype ws) && (cmdKind ws != 1 || cmdDtype ws == cmdStype ws)),
   fieldCheck 0 45 (cmdKind ws != 2 || cmdMode ws ≤ 5),
   fieldCheck 0 38 (cmdRole ws != 3),
   fieldCheck 0 32 (wbits (w 0) 37 32 == 0),
   fieldCheck 8 0 (wbits (w 8) 31 0 == 0),
   fieldCheck 9 0 ((w 9).toNat % 32 == 0)] ++
  (if chain then
    [fieldCheck 11 0 (wbits (w 11) 47 0 == 0), fieldCheck 13 0 ((w 13).toNat % 128 == 0)]
   else
    [fieldCheck 11 48 (cmdRep ws == 0), fieldCheck 11 0 (wbits (w 11) 47 0 == 0),
     fieldCheck 12 32 (wbits (w 12) 63 32 == 0), fieldCheck 12 0 (wbits (w 12) 31 0 == 0),
     fieldCheck 13 0 (w 13 == 0)]) ++
  [fieldCheck 14 0 (w 14 == 0), fieldCheck 15 0 (w 15 == 0)]

/-- The global address of a pointer, if it is one. -/
def globalBase (p : W64) : List Nat :=
  match spaceOf p with
  | .global va => [va]
  | _ => []

/-- The global bases of a command, in the order of R328. -/
def commandBases (ws : List W64) : List (Nat × Access) :=
  (if cmdKind ws = 3 || cmdRole ws == 2 then []
    else (globalBase (cmdSrc ws)).map (fun a => (a, .command))) ++
  (if cmdRole ws = 1 then [] else (globalBase (cmdDst ws)).map (fun a => (a, .commandStore))) ++
  (if cmdCompl ws = 0 then [] else (globalBase (cmdCompl ws)).map (fun a => (a, .store)))

/-- Whether a command reads through its SRC. -/
def cmdReads (ws : List W64) : Bool := cmdKind ws != 3 && cmdRole ws != 2

/-- The value that a command's source names, first block and length: its tag is compared when the command is
taken, and not again (R188). -/
def Core.sourceValue (k : Core) (ws : List W64) : Checked (Option (Nat × Nat)) :=
  match spaceOf (cmdSrc ws) with
  | .value c _ _ =>
    if !cmdReads ws then .ok none
    else if c ≠ k.vid then .error (0x0C, cmdSrc ws)
    else
      match k.resolve (cmdSrc ws) with
      | .ok b => .ok (some (b, (k.block b).len + 1))
      | .error f => .error f
  | _ => .ok none

/-- A command put among those of a core, with the value that it holds. -/
def Core.addCommand (k : Core) (c : Command) : Core :=
  let k := { k with cmds := k.cmds ++ [c] }
  match c.hold with
  | some (b, n) => k.holdValue b n
  | none => k

def execEcmd (_ : BitVec 3) (a : BitVec 5) (s : State) : Host.Outcome State Fault Refusal :=
  .next (s.descriptor (s.reg a) 128 (commandChecks false) (fun _ ws s =>
    s.checked (s.me.sourceValue ws) (fun v s =>
      s.withRoom 1 (fun s => s.translated (commandBases ws) (fun es s =>
        let (n, s) := s.number
        let (d, s) := s.later 1
        s.modMe (fun k => (k.holdEntries (es.map TlbEntry.id)).addCommand
          { id := n, words := ws, ready := d, gen := (k.ring (cmdRing ws)).gen, pages := es, hold := v }))))))

/-- The privilege of the chain words (R117). -/
def State.chainPrivilege (s : State) : Bool × Nat × W64 := (!s.inEpilogue, 0x03, 0)

def Core.chain (k : Core) (j : Nat) : Chain := vget {} k.chains j
def Core.setChain (k : Core) (j : Nat) (c : Chain) : Core := { k with chains := vset k.chains j c }

def execChl (_ : BitVec 3) (a : BitVec 5) (j : BitVec 3) (s : State) :
    Host.Outcome State Fault Refusal :=
  let p := s.reg a
  let n := j.toNat
  .next (s.guarded [s.chainPrivilege] (fun s =>
    s.checked (deref s.me p .ownOrGlobal (fun x => x % 128 == 0)) (fun t s =>
      s.guarded [(!(s.me.chain n).run, 0x15, ringInfo n 7)] (fun s =>
        let link (s : State) : State := s.modMe (fun k => k.setChain n { lnk := true, next := p })
        match t with
        | .global va => s.translated [(va, .command)] (fun _ s => link s)
        | _ => link s))))

/-- CHK runs a slot's chain; on a running slot it only clears a stop that has not taken effect (DESIGN CHOICE,
log 66). -/
def execChk (_ : BitVec 3) (j : BitVec 3) (s : State) : Host.Outcome State Fault Refusal :=
  let n := j.toNat
  let c := s.me.chain n
  .next (s.guarded [s.chainPrivilege, (c.lnk, 0x15, ringInfo n 7)] (fun s =>
    if c.run then s.modMe (fun k => k.setChain n { c with stop := none })
    else
      let (m, s) := s.number
      let (d, s) := s.later 1
      s.modMe (fun k => k.setChain n { c with run := true, stop := none, after := m, ready := d })))

def execChkStop (_ : BitVec 3) (j : BitVec 3) (s : State) : Host.Outcome State Fault Refusal :=
  let n := j.toNat
  .next (s.guarded [((s.me.chain n).lnk, 0x15, ringInfo n 7)] (fun s =>
    s.modMe (fun k => k.stopChain s.tide n)))

/-! ### Tide alignment (R331) -/

def execTalign (_ : BitVec 3) (a : BitVec 5) (s : State) : Host.Outcome State Fault Refusal :=
  .next (s.guarded s.gateChecks (fun s => s.setGate (.talign (s.reg a))))

def execTalignM (_ : BitVec 3) (a : BitVec 5) (s : State) : Host.Outcome State Fault Refusal :=
  .next (s.guarded (s.gateChecks ++ [s.shapeCheck (s.reg a != 0)]) (fun s =>
    s.setGate (.talignM (s.reg a))))

/-! ### Checkpoints (R332 to R334) -/

/-- The checkpoint area of a task: address and pages (R98). -/
def Task.ckaddr (k : Task) : Nat := (k.header.getD 1 0).toNat
def Task.ckpages (k : Task) : Nat := wbits (k.header.getD 2 0) 31 0

/-- Offset of a gang core's region in the checkpoint area (R333). -/
def regionOf (g : Nat) : Nat := 0x1000 + g * 0x120000

/-- The carried values of a list: handle and REG word. -/
def carried (ws : List W64) : List (W64 × W64) :=
  (List.range (wbits (ws.getD 0 0) 5 0)).map (fun i => (ws.getD (8 + 2 * i) 0, ws.getD (9 + 2 * i) 0))

/-- Check 4 of R332. -/
def carriedChecks (ws : List W64) : List (Bool × Nat × W64) :=
  [fieldCheck 0 6 (wbits (ws.getD 0 0) 63 6 == 0),
   fieldCheck 0 0 (wbits (ws.getD 0 0) 5 0 ≤ 32)] ++ zeroWords ws 1 7 ++
  (carried ws).zipIdx.map (fun v => fieldCheck (9 + 2 * v.2) 5 (wbits v.1.2 63 5 == 0))

/-- The bytes of a value (R184): its elements and scales. -/
def Core.valueBytes (k : Core) (b : Nat) : List Byte :=
  k.scratch.read (k.blockAddr b) (imageBytes (k.block b).shape)

/-- The head block of a carried value; block 0 where the handle is not valid. -/
def Core.headOf (k : Core) (h : W64) : Nat :=
  match k.resolve h with
  | .ok b => b
  | .error _ => 0

/-- The issue-time parts of a region (R333), as offsets from the checkpoint area and bytes: the registers as a CSRR
reads them. -/
def Core.regionParts (k : Core) (vs : List (W64 × W64)) : List (Nat × List Byte) :=
  let r := regionOf k.gidx
  [(r, bytesOfWords [k.csrSingle 0 0x1B, k.parea, k.trapvec, k.tsave, w64 vs.length, 0, 0, 0])] ++
  (if vs.isEmpty then [] else
    [(r + 0x200, vs.flatMap (fun v => bytesOfWords
      [v.1, w64 ((k.block (k.headOf v.1)).shape.toNat * 2 ^ 32 + wbits v.2 4 0)]))]) ++
  (List.range 16).map (fun i =>
    let g := vget {} k.kvseg i
    (r + 0x1000 + 4096 * i, if wbit g.desc 63 && wbit g.desc 62 then
      bytesOfWords (g.desc :: g.entries) else bytesOfWords [0])) ++
  vs.zipIdx.map (fun v => (r + 0x11000 + 0x8000 * v.2, k.valueBytes (k.headOf v.1.1)))

/-- Bytes at an address cut at the multiples of `w`. -/
def cutsAt (w va : Nat) (bs : List Byte) : List (Nat × List Byte) :=
  (List.range ((va % w + bs.length + w - 1) / w)).map (fun i =>
    let from_ := i * w - va % w
    let to_ := (i + 1) * w - va % w
    (va + from_, (bs.take to_).drop from_))

/-- Bytes at a virtual address cut at 64 KiB boundaries. -/
def pageCuts (va : Nat) (bs : List Byte) : List (Nat × List Byte) := cutsAt (2 ^ 16) va bs

/-- The target of an address under a leaf (R169). -/
def Leaf.target (l : Leaf) (va : Nat) : Target :=
  (TlbEntry.target ⟨0, l.va, l.size, l.tgt, l.kind, l.key, l.pod, l.frame, 0, false, l.part⟩) va

/-- A write of the hardware itself, made through the tables with no buffer: its targets, or the
fault. -/
def State.hardWrite (s : State) (p die : Nat) (a : Access) :
    List (Nat × List Byte) → Checked (List (Piece × List Byte))
  | [] => .ok []
  | (va, bs) :: rest =>
    match s.walk p die a va with
    | .error w => .error (w.cause, w.info 7 va)
    | .ok l =>
      if !l.kind.admits a then .error (0x0F, protInfo (accessCode a) (pageCode l.kind) va)
      else
        match s.hardWrite p die a rest with
        | .error f => .error f
        | .ok ps => .ok ((⟨va, l.target va, bs.length⟩, bs) :: ps)

/-- A write through the translations that a task holds: its targets, or the fault. -/
def Task.heldWrite (k : Task) : List (Nat × List Byte) → Checked (List (Piece × List Byte))
  | [] => .ok []
  | (va, bs) :: rest =>
    match k.held va with
    | none => .error (0x0E, transInfo 7 0 va)
    | some e =>
      if !e.kind.admits .store then .error (0x0F, protInfo 0 (pageCode e.kind) va)
      else
        match k.heldWrite rest with
        | .error f => .error f
        | .ok ps => .ok ((⟨va, e.target va, bs.length⟩, bs) :: ps)

/-- The region's issue-time parts written as global writes of the core (R334). -/
def State.writeRegion (s : State) (vs : List (W64 × W64)) : State :=
  let parts := (s.me.regionParts vs).flatMap (fun x => pageCuts (s.myTask.ckaddr + x.1) x.2)
  s.checked (s.myTask.heldWrite parts) (fun ps s =>
    let first := s.fresh
    let s := ps.foldl (fun s x => s.request (.store x.2) [x.1] []) s
    let ids := (s.me.reqs.filter (fun r => first ≤ r.id)).map GReq.id
    let s := s.modMe (fun k => { k with
      rings := k.rings.map (fun r => { r with ckd := false })
      epi := { active := true, writes := ids } })
    match s.me.task with
    | some t => s.modTask t (fun k => { k with shielded := true })
    | none => s)

/-- Checks 1 and 2 of R332. -/
def State.ckptChecks (s : State) : List (Bool × Nat × W64) :=
  [(!s.myTask.np && s.myTask.ckaddr != 0, 0x03, 0), s.shapeCheck (!s.me.epi.active)]

/-- Checks 5 to 7 of R332. -/
def State.regionChecks (s : State) (vs : List (W64 × W64)) : List (Bool × Nat × W64) :=
  let last := (s.me.regionParts vs).foldl (fun m x => Nat.max m (x.1 + x.2.length))
    (regionOf s.me.gidx + 0x11000)
  vs.map (fun v => s.shapeCheck (1 ≤ wbits v.2 4 0 && wbits v.2 4 0 ≤ 23)) ++
  vs.map (fun v => match s.me.resolve v.1 with | .ok _ => (true, 0x13, v.1) | .error f => (false, f)) ++
  [(decide (last ≤ s.myTask.ckpages * 4096), 0x0F, protInfo 0 7 (s.myTask.ckaddr + last - 1))]

def execCkpt (_ : BitVec 3) (a : BitVec 5) (s : State) : Host.Outcome State Fault Refusal :=
  let p := s.reg a
  .next (s.guarded s.ckptChecks (fun s =>
    if a = 0 then s.guarded (s.regionChecks []) (fun s => s.writeRegion [])
    else
      s.checked (s.me.ownRegion p 64) (fun off s =>
        let n := Nat.min (wbits (w64 (natOfBytes (s.me.scratch.read off 8))) 5 0) 32
        s.descriptor p (64 + 16 * n) carriedChecks (fun _ ws s =>
          s.guarded (s.regionChecks (carried ws)) (fun s => s.writeRegion (carried ws))))))

end Sys2Proof.Machine
end

