-- ==== Sys2Proof/Machine/Lines.lean ====
section
/-!
DEFINITION. Lines of device memory in plaintext and under a key (R66), bytes that a task reaches through the
translations that it holds, and what the stream of a core holds beyond the rows that are loaded (R110).
-/

namespace Sys2Proof.Machine

/-- The lines of a run of bytes. -/
def linesOf (addr n : Nat) : List Nat :=
  (List.range ((addr % 64 + n + 63) / 64)).map (fun i => addr / 64 + i)

/-! ### Encrypted lines (R66) -/

/-- The key under which a slot's lines are encrypted; a slot that holds none has its number in place of one. -/
def State.slotKey (s : State) (slot : Nat) : List Byte :=
  let k := Sparse.get [] s.keys slot
  if k = [] then bytesOfNat 2 slot else k

/-- A line read under a slot's key: the plaintext last stored, where that was stored under the same key and
its ciphertext still stands; else what decryption makes of the line. -/
def State.openLine (s : State) (slot line : Nat) : List Byte :=
  let k := s.slotKey slot
  let raw := BitVec.ofNat 512 (natOfBytes (s.device.read (64 * line) 64))
  let plain := match s.locked.find line with
    | some x => if x.key = k && Config.encrypt k (64 * line) x.line = raw then x.line
      else Config.decrypt k (64 * line) raw
    | none => Config.decrypt k (64 * line) raw
  bytesOfNat 64 plain.toNat

def State.openBytes (s : State) (slot a n : Nat) : List Byte :=
  (((linesOf a n).flatMap (s.openLine slot)).drop (a % 64)).take n

/-- A line stored under a slot's key. -/
def State.sealLine (s : State) (slot line : Nat) (bs : List Byte) : State :=
  let k := s.slotKey slot
  let plain := BitVec.ofNat 512 (natOfBytes bs)
  { s with
    device := s.device.write (64 * line) (bytesOfNat 64 (Config.encrypt k (64 * line) plain).toNat)
    locked := s.locked.put line ⟨k, plain⟩ }

/-- Bytes stored under a slot's key: the lines that they lie in are decrypted, changed and encrypted. -/
def State.sealBytes (s : State) (slot a : Nat) (bs : List Byte) : State :=
  let ls := linesOf a bs.length
  let old := ls.flatMap (s.openLine slot)
  let new := old.take (a % 64) ++ bs ++ old.drop (a % 64 + bs.length)
  (ls.zip (chunksOf 64 ls.length new)).foldl (fun s x => s.sealLine slot x.1 x.2) s

/-! ### What a task reaches -/

/-- Bytes through a translation that a task holds as memory holds them now. -/
def State.heldBytes (s : State) (k : Task) (va n : Nat) : List Byte :=
  match k.held va with
  | none => List.replicate n 0
  | some e =>
    match e.target va with
    | .device a => s.device.read a n
    | .cipher a slot => s.openBytes slot a n
    | .host a => s.host.read a n
    | _ => List.replicate n 0

/-! ### The stream of a core -/

/-- The words of a kernel row as memory holds them now. -/
def rowWords (bs : List Byte) : List W32 := (wordsOf 4 256 bs).map (BitVec.ofNat 32)

/-- The stream of a core: its kernel rows as memory holds them. -/
def State.rowsOf (s : State) (c : Nat) : List (Nat × List W32) :=
  match s.taskOf c with
  | none => []
  | some k =>
    let krows := s.krows c
    let stream := (k.map.getD (s.core c).gidx 0).toNat
    (List.range krows).map (fun j => (j, rowWords (s.heldBytes k
      ((k.word 0).toNat + 1024 * (1 + stream * krows + j)) 1024)))

/-- The stream in a core's store with every row that its task's image gives it, whether
or not the row has been loaded. -/
def Core.withRows (k : Core) (rows : List (Nat × List W32)) : Core :=
  rows.foldl (fun k r =>
    if k.lease.any (fun e => e.2.readable k.task r.1) then k
    else
      { k with
        lease := k.lease.put (64 + r.1) { task := k.task.getD 0, row := r.1, state := .live }
        istore := Sparse.write 0 k.istore ((64 + r.1) * 256) r.2 }) k

/-- The word that follows in a queue, in the queue or still in the stream, whether or not its row has been
loaded (R129). -/
def State.queueNext (s : State) (c e : Nat) (k : Core) : Option W32 :=
  match (k.queue e).words.head? with
  | some w => some w.word
  | none => (k.withRows (s.rowsOf c)).following (s.krows c) e

end Sys2Proof.Machine
end

