-- ==== Sys2Proof/Machine/Performs.lean ====
section
/-!
DEFINITION. What words do at their perform tides (R126, R127): the operations of `POp`, bank conflicts
(R156, R159, R371), and the atomic operations of R414 to R417, R425 and R426 on one unit.
-/

namespace Sys2Proof.Machine

/-! ### Places -/

/-- Bytes at a place of a core's own storage. -/
def State.bytesAt (s : State) (c : Nat) (p : Place) (n : Nat) : List Byte :=
  match p with
  | .scratch a => (s.core c).scratch.read a n
  | .cohort a => s.cohort.read a n
  | .global _ => []

def Core.storeScratch (k : Core) (a : Nat) (bs : List Byte) : Core :=
  { k with scratch := k.scratch.write a bs }

/-- Bytes stored at a place of a core's own storage. -/
def State.storeBytes (s : State) (c : Nat) (p : Place) (bs : List Byte) : State :=
  match p with
  | .scratch a => s.modCore c (fun k => k.storeScratch a bs)
  | .cohort a => { s with cohort := s.cohort.write a bs }
  | .global _ => s

/-- A plain store to cohort memory ends the release sequences of the bytes that it takes (R201). -/
def State.endReleases (s : State) (p : Place) (n : Nat) : State :=
  match p.key n with
  | some key => { s with covers := s.covers.filter (fun v => !v.key.meets key) }
  | none => s

/-- A location at its value: a flag's is the one that it has come to (R440). -/
def State.atValue (s : State) : CoverKey → CoverKey
  | .flag c f _ => .flag c f ((s.core c).flag f)
  | key => key

/-- A release performed at a location outside global memory (R203). -/
def State.addCover (s : State) (v : Cover) : State :=
  { s with covers := s.covers ++ [{ v with key := s.atValue v.key }] }

/-- The register value of loaded bytes. -/
def loaded (sx : Bool) (bs : List Byte) : W64 :=
  let v := natOfBytes bs
  let w := 8 * bs.length
  if sx && 2 ^ (w - 1) ≤ v then w64 (v + 2 ^ 64 - 2 ^ w) else w64 v

/-! ### Atomic operations on one unit -/

/-- What an atomic operation does: the unit's new bytes, if it writes; the value that it returns; whether
it succeeded; and, for a WLK attempt, the registration. -/
structure RmwResult where
  new : Option (List Byte) := none
  value : W64 := 0
  ok : Bool := true
  reg : Bool := false
  deriving DecidableEq, Repr

/-- Bytes of the unit of an atomic operation. -/
def Rmw.size : Rmw → Nat
  | .atom _ true _ => 4
  | .fill _ => 16
  | .take => 16
  | _ => 8

/-- ATOM's new value (R414). -/
def atomValue (op w u v : Nat) : Nat :=
  let lt (a b : Nat) : Bool := sextNat w a < sextNat w b
  match op with
  | 0 => (u + v) % 2 ^ w
  | 1 => Nat.land u v
  | 2 => Nat.lor u v
  | 3 => Nat.xor u v
  | 4 => if lt v u then v else u
  | 5 => if lt u v then v else u
  | 6 => if v < u then v else u
  | 7 => if u < v then v else u
  | _ => v

/-- The fields of a lock word (R416). -/
def lockPref (u : W64) : Bool := wbit u 63
def lockHeld (u : W64) : Bool := wbit u 62
def lockWaitw (u : W64) : Nat := wbits u 61 32
def lockReaders (u : W64) : Nat := wbits u 31 0

/-- A unit of 8 bytes written. -/
def unit8 (u : W64) : Option (List Byte) := some (bytesOfNat 8 u.toNat)

/-- An attempt on a lock word (R416). -/
def rlkAttempt (u : W64) : RmwResult :=
  if !lockHeld u && !(lockPref u && lockWaitw u != 0) && lockReaders u < 0xFFFFFFFF then
    { new := unit8 (u + 1), value := u }
  else { value := u, ok := false }

def wlkAttempt (reg : Bool) (u : W64) : RmwResult :=
  if !lockHeld u && lockReaders u == 0 then
    let u' := setBits u 62 62 1
    { new := unit8 (if reg then setBits u' 61 32 (lockWaitw u - 1) else u'), value := u, reg := reg }
  else if !reg && lockWaitw u < 0x3FFFFFFF then
    { new := unit8 (setBits u 61 32 (lockWaitw u + 1)), value := u, ok := false, reg := true }
  else { value := u, ok := false, reg := reg }

/-- An atomic operation applied to a unit. -/
def Rmw.apply (op : Rmw) (bs : List Byte) : RmwResult :=
  let u := w64 (natOfBytes bs)
  match op with
  | .atom o w32 v =>
    let w := if w32 then 32 else 64
    { new := some (bytesOfNat (w / 8) (atomValue o w u.toNat (v.toNat % 2 ^ w))), value := u }
  | .cas e n => { new := if u = e then unit8 n else none, value := u }
  | .rul =>
    if lockReaders u = 0 then { value := u, ok := false } else { new := unit8 (u - 1), value := u }
  | .wul =>
    if lockHeld u then { new := unit8 (setBits u 62 62 0), value := u } else { value := u, ok := false }
  | .rlk => rlkAttempt u
  | .wlk reg => wlkAttempt reg u
  | .withdraw =>
    if lockWaitw u = 0 then { value := u } else { new := unit8 (setBits u 61 32 (lockWaitw u - 1)), value := u }
  | .fill v =>
    if wbit (w64 (natOfBytes (bs.drop 8))) 63 then { ok := false }
    else { new := some (bytesOfNat 8 v.toNat ++ bytesOfNat 8 (2 ^ 63)) }
  | .take =>
    { value := w64 (natOfBytes (bs.take 8)), ok := wbit (w64 (natOfBytes (bs.drop 8))) 63 }

/-- Whether an operation is a gate's attempt. -/
def Rmw.attempt : Rmw → Bool
  | .rlk => true
  | .wlk _ => true
  | .take => true
  | _ => false

/-- The kernel's gate, which a handler sets aside. -/
def Core.kernelGate (k : Core) : Gate := (k.saved.getD k.stream).gate

def Core.setKernelGate (k : Core) (g : Gate) : Core :=
  match k.saved with
  | some st => { k with saved := some { st with gate := g } }
  | none => { k with stream := { k.stream with gate := g } }

/-- The result of a gate's attempt (R416, R426): the condition holds, or the next attempt comes 32 tc
later. -/
def State.attemptDone (s : State) (c : Nat) (op : Rmw) (r : RmwResult) : State :=
  let g := (s.core c).kernelGate
  if !g.busy then s
  else
    let s := s.modCore c (fun k => k.setKernelGate
      { g with busy := false, holds := r.ok, value := r.value, reg := r.reg && !r.ok
               attempts := g.attempts + 1 })
    if r.ok then s
    else s.due (s.tide + 32) (if op = .take then .takeRead c else .lockAttempt c) 0

/-- An engine fault of an operation at its perform (R137). -/
def State.engineFault (s : State) (c eng : Nat) (handler : Bool) (code : Nat) (info : W64) : State :=
  if (s.core c).mode == .handler && !handler then s
  else s.raise c eng false code info (s.tide + 1)

/-- The faults of an atomic operation that was refused (R417, R425), with the address of its unit. -/
def State.rmwFault (s : State) (c : Nat) (handler : Bool) (op : Rmw) (ptr : W64) (addr : Nat) : State :=
  match op with
  | .rul => s.engineFault c 6 handler 0x0F (protInfo 1 6 addr)
  | .wul => s.engineFault c 6 handler 0x0F (protInfo 1 6 addr)
  | .fill _ => s.engineFault c 6 handler 0x14 ptr
  | _ => s

/-! ### Tiles -/

/-- A save slot in scratchpad: elements and sideband (R141). -/
def Core.saveData (k : Core) (n : Nat) : Nat := wbits k.tsave 21 17 * 2 ^ 17 + n * 8192
def Core.saveSide (k : Core) (n : Nat) : Nat := wbits k.tsave 21 17 * 2 ^ 17 + 2 ^ 17 + n * 512

/-- An absent tile brought back from its save slot, or filled with zeros (R146). -/
def Core.reloaded (k : Core) (n : Nat) : Core :=
  let t := k.tile n
  if !t.a then k
  else if t.z then k.setTile n { t with a := false, data := [], side := [] }
  else
    k.setTile n { t with
      a := false
      data := Memory.write [] 0 (k.scratch.read (k.saveData n) 8192)
      side := Memory.write [] 0 (k.scratch.read (k.saveSide n) 512) }

/-- A write to a tile (R144). A write that a stop captured may find its tile absent; the tile is brought
back first (log 24). -/
def State.writeTile (s : State) (c n : Nat) (f : Tile → Tile) : State :=
  s.modCore c (fun k =>
    let k := if k.mode == .handler then k else k.reloaded n
    k.setTile n (f (k.tile n)).touched)

/-- Byte writes into the elements and the sideband. -/
def Tile.patched (t : Tile) (data side : List (Nat × List Byte)) : Tile :=
  { t with data := data.foldl (fun m p => m.write p.1 p.2) t.data
           side := side.foldl (fun m p => m.write p.1 p.2) t.side }

/-- Bytes of an image from an offset, laid out by the shape that the word saw (R361). -/
def Tile.imagePart (t : Tile) (elems off : Nat) (bs : List Byte) : Tile :=
  if elemBytes t.shape = elems then t.putImage off bs
  else { t with data := t.data.write off (bs.take (elems - off)) }

/-- A tile's configuration at issue + 1: cleared (R343), or the earlier content kept while a value's lines are on
their way (R346). -/
def Tile.shaped (t : Tile) (w : W32) (d : Bool) (cur : Nat) : Tile :=
  if d then { t with c := true, d := true, z := false, a := false, cur := cur, shape := w }
  else { t.configured w with cur := cur }

/-- The scales at the tail of a value (R346), unless the tile has another shape by now. -/
def Tile.scaled (t : Tile) (elems : Nat) (bs : List Byte) : Tile :=
  if elemBytes t.shape = elems then { t with side := t.side.write 0 bs } else t

/-- A tile zeroed (R343). -/
def Tile.zeroed (t : Tile) : Tile :=
  { t with d := false, z := true, a := false, cur := 0, data := [], side := [] }

/-- A result record in triple form (R386, R360). -/
def Tile.tripled (t : Tile) (row : Nat) (record : List Byte) : Tile :=
  let ml := (record.drop 8).take 8
  t.patched [(row * 512, (record.drop 16).take 512), ((row + 1) * 512, ml ++ List.replicate 504 0)] []

/-- LDTR's elements (R387): row j, column i from source element (i, j). -/
def ldtrElements (w : W32) (bs : List Byte) : List (WithFlags Nat) :=
  let rd := shapeRows w
  let cd := shapeCols w
  let rows := chunksOf rd cd bs
  let scales := bs.drop (cd * rd)
  (List.range rd).flatMap (fun j => rows.zipIdx.map (fun r =>
    roundTo tBF16 ⟨0, false, 0⟩
      (mxValue (scales.getD (r.2 * (rd / 32) + j / 32) 0).toNat (r.1.getD j 0).toNat)))

/-! ### Rings (R163 to R166) -/

/-- REL moved on by one, with checkpoint-due (R166). -/
def Ring.releaseOne (r : Ring) : Ring :=
  let rel := r.rel + 1
  let n := wbits r.cfg 63 48
  { r with rel := rel, ckd := r.ckd || (n != 0 && rel != 0 && rel.toNat % (n * r.slots) == 0) }

/-- PUB moved over the published prefix. -/
def Ring.settlePub (r : Ring) : Nat → Ring
  | 0 => r
  | n + 1 =>
    if r.published.contains r.pub then
      { r with pub := r.pub + 1, published := r.published.filter (· != r.pub) }.settlePub n
    else r

/-- REL moved over the released prefix. -/
def Ring.settleRel (r : Ring) : Nat → Ring
  | 0 => r
  | n + 1 =>
    if r.released.contains r.rel then
      { r with released := r.released.filter (· != r.rel) }.releaseOne.settleRel n
    else r

/-- A slot published with its tag (R164). -/
def Ring.publish (r : Ring) (p : W32) : Ring :=
  { r with tags := Sparse.set 0 r.tags (p.toNat % r.slots) (p.setWidth 16)
           published := r.published ++ [p] }.settlePub (r.published.length + 1)

/-- A slot released (R423). -/
def Ring.release (r : Ring) (p : W32) : Ring :=
  { r with released := r.released ++ [p] }.settleRel (r.released.length + 1)

/-- The next slot consumed and released at once (R163, R367). -/
def Ring.pop (r : Ring) : Ring := { r with con := r.con + 1 }.releaseOne

/-- What RRES and RCON return: a position and its slot's scratchpad offset (R423). -/
def Ring.slotWord (r : Ring) (p : W32) : W64 := w64 (r.slotAddr p * 2 ^ 32 + p.toNat)

/-- Why a ring operation breaks R163: the operation code of R152, if it does. -/
def Ring.reserveFault (r : Ring) (n : Nat) : Option Nat :=
  if !r.enabled then some 6 else if r.slots < (r.rsv - r.rel).toNat + n then some 1 else none
def Ring.publishFault (r : Ring) (p : W32) : Option Nat :=
  if !r.enabled then some 6
  else if !within p r.pub r.rsv || r.published.contains p then some 2 else none
def Ring.releaseFault (r : Ring) (p : W32) : Option Nat :=
  if !r.enabled then some 6
  else if !within p r.rel r.con || r.released.contains p then some 4 else none
def Ring.popFault (r : Ring) : Option Nat :=
  if !r.enabled then some 6 else if r.filled = 0 || r.rel != r.con then some 5 else none

/-- A ring operation, or its engine fault. -/
def State.ringOp (s : State) (c eng n : Nat) (handler : Bool) (fault : Ring → Option Nat)
    (f : Ring → State → State) : State :=
  let r := (s.core c).ring n
  match fault r with
  | some op => s.engineFault c eng handler 0x15 (ringInfo n op)
  | none => f r s

/-- The page scans of a query take the positions reserved for them (R401). -/
def State.placeScans (s : State) (query : Option Nat) (r : Ring) : State :=
  match query with
  | none => s
  | some q => { s with scans := s.scans.map (fun x =>
      if x.query = q then { x with pos := some (r.rsv + BitVec.ofNat 32 x.index), gen := r.gen } else x) }

/-- The tiles and the result records that are on their way into a ring of a core. -/
def State.producersOf (s : State) (c n : Nat) : List Nat :=
  (if n = 15 then (s.inbound.filter (fun x => x.dst == c && x.slot.isSome)).map Inbound.send else []) ++
  (s.scans.filter (fun x => x.core == c && x.ring == n && x.pos.isSome)).map PageScan.id

/-- A CSRW performed. One that configures a ring with EN 0 discards what is on its way into cancelled slots (R162). -/
def State.csrWrite (s : State) (c n : Nat) (v : W64) : State :=
  let gone := if n / 16 = 8 && !wbit v 16 then s.producersOf c (n % 16) else []
  s.modCore c (fun k => { k.csrWrite n v with arriving := k.arriving.filter (fun a => !gone.contains a.id) })

/-- The page scans of a query whose slots could not be reserved have nowhere to write. -/
def State.dropQuery (s : State) (query : Option Nat) : State :=
  { s with scans := s.scans.filter (fun x => some x.query != query) }

/-! ### Matrix array (R369 to R376) -/

/-- The bytes that a word has read under a key. -/
def Core.buffered (k : Core) (key : Nat) : List Byte := (k.mbuf.find key).getD []

/-- The bytes of a word's beats. -/
def Core.bufferedRun (k : Core) (key n : Nat) : List Byte :=
  (List.range n).flatMap (fun i => k.buffered (key + i))

/-- A plane loaded from a slot's rows and tail, with the invalid flag of a stray OX4 code. -/
def planeOf (wt rows : Nat) (data tail : List Byte) : Plane × Flags :=
  let cols := data.take (rows * 256)
  let sb := scaleBytes wt
  let scales := tail.take (rows * sb) ++ List.replicate ((128 - rows) * sb) 0x7F
  ({ ct := wt, cols := Memory.write [] 0 cols, scales := Memory.write [] 0 scales },
   if (mElems wt cols).2 then flagInvalid else 0)

/-- A drained row: the row's elements rounded into the tile's type (R375). -/
def drained (ty row sc : Nat) (ctx : RoundCtx) (xs : List Nat) : List (WithFlags Nat) :=
  xs.zipIdx.map (fun (x, i) =>
    roundTo ty (ctx.at (row * 128 + i)) ((valueOf tFP32 x).scale ((sc : Int) - 127)))

/-! ### KV segments (R402) -/

/-- A segment as its image gives it. -/
def segmentOf (lock : Bool) (image : List Byte) : KvSegment :=
  let ws := words64 264 image
  { desc := w64 (2 ^ 63 + (if lock then 2 ^ 62 else 0) + wbits (ws.getD 0 0) 39 0), entries := ws.drop 8 }

/-! ### Performing -/

/-- An operation that follows from one that has performed, one tc later; a stop captures it as the
others (R135). -/
def State.follow (s : State) (c plane : Nat) (p : Perform) (op : POp) (banks : List Nat) : State :=
  let q : Perform := { p with at_ := p.at_ + 1, op := op, banks := banks }
  s.modCore c (fun k =>
    if k.mode == .frozen && decide (plane ≤ q.at_) then { k with captured := k.captured ++ [q] }
    else { k with inflight := k.inflight ++ [q] })

/-- The plane of the stop that a core's gang is in. -/
def State.stopPlane (s : State) (c : Nat) : Nat := (((s.taskOf c).bind Task.stop).map Stop.plane).getD 0

/-- A timed landing clears the mark that its own word made (R383). -/
def Core.landsAt (k : Core) (r at_ : Nat) : Core :=
  { k with pend := k.pend.filter (fun x => !(x.dest == .reg r && x.fixed == some at_)) }

/-- A register loaded. -/
def Core.loadReg (k : Core) (r at_ : Nat) (v : W64) : Core := (k.setReg r v).landsAt r at_

/-- An atomic of a timed word or of a gate's attempt on scratchpad or cohort memory: it sees the atomics before
it, but for a TAKE, which only reads, and reads what stood before this tide, `o` (R160, R426). -/
def State.performRmw (o s : State) (c : Nat) (p : Perform) (r : Nat) (at_ : Place) (op : Rmw) (ptr : W64)
    (sync : Sync) : State :=
  let x := op.apply ((if op == .take then o else s).bytesAt c at_ op.size)
  let addr := match at_ with
    | .scratch a => a
    | .cohort a => a % 2 ^ 23
    | .global a => a
  let key := at_.key op.size
  let s := match sync.acq, key with
    | some (scope, req), some key =>
      let from_ : State := if op = Rmw.take then o else s
      let ids := from_.coveredBy key c scope
      if op.attempt then
        if x.ok then s.modCore c (fun k => k.setKernelGate { k.kernelGate with covers := ids }) else s
      else s.modCore c (fun k => { k with reqs := k.reqs.map (fun (q : GReq) =>
        if q.id = req then { q with op := .acquired true ids } else q) })
    | _, _ => s
  let s := match x.new with
    | some bs =>
      let s := s.storeBytes c at_ bs
      match sync.rel, key with
      | some (scope, ids), some key =>
        s.addCover ⟨key, c, (s.core c).task, scope, ids⟩
      | _, _ => s
    | none => s
  let s := s.modCore c (fun k => k.setReg r x.value)
  if op.attempt then s.attemptDone c op x
  else if x.ok then s else s.rmwFault c p.handler op ptr addr

/-- A line of a value on its way into a tile (R346): its element bytes are written one tc later; bytes of the
scales are set aside until the last line, with which all of them are placed. -/
def State.valueLine (s : State) (c plane : Nat) (p : Perform) (t elems total off : Nat) (bs : List Byte) : State :=
  let s := if off < elems then s.follow c plane p (.tileBytes t elems off (bs.take (elems - off))) [] else s
  if off + 64 ≤ elems || total ≤ elems then s
  else
    let s := s.modCore c (fun k => { k with mbuf := k.mbuf.put (p.ord * 256 + off / 64) bs })
    if off + 64 < total then s
    else
      let tail := (s.core c).bufferedRun (p.ord * 256 + elems / 64) (off / 64 + 1 - elems / 64)
      (s.follow c plane p (.tileScales t elems ((tail.drop (elems % 64)).take (total - elems))) []).modCore c (fun k =>
        { k with mbuf := k.mbuf.filter (fun e => e.1 / 256 != p.ord) })

/-- An operation performs: what it reads as of this tide comes from `o`, the state before anything of
this tide performed. -/
def State.performOne (o : State) (c : Nat) (p : Perform) (s : State) : State :=
  let k := o.core c
  let lands (f : Core → Core) : State := s.modCore c f
  let gone (h : W64) : State := s.engineFault c p.eng p.handler 0x13 h
  match p.op with
  | .use => s
  | .reg r v => lands (fun k => k.setReg r v)
  | .load r at_ size sx => lands (fun k => k.loadReg r p.at_ (loaded sx (o.bytesAt c at_ size)))
  | .loadValue r h off size sx =>
    match k.resolve h with
    | .ok b => lands (fun k' =>
        k'.loadReg r p.at_ (loaded sx (k.scratch.read (k.blockAddr b + off) size)))
    | .error _ => (gone h).modCore c (fun k => k.landsAt r p.at_)
  | .store at_ bs => (s.storeBytes c at_ bs).endReleases at_ bs.length
  | .rmw r at_ op ptr sync => o.performRmw s c p r at_ op ptr sync
  | .acquire key scope req =>
    let ids := o.coveredBy key c scope
    lands (fun (k : Core) => { k with reqs := k.reqs.map (fun (q : GReq) =>
      if q.id = req then { q with op := .acquired true ids } else q) })
  | .release key scope ids => s.addCover ⟨key, c, k.task, scope, ids⟩
  | .tileBytes t elems off bs => s.writeTile c t (fun x => x.imagePart elems off bs)
  | .tileWrite t data side fl =>
    (s.writeTile c t (fun x => x.patched data side)).modCore c (fun k => k.raiseFlags p.eng fl)
  | .tileLoad t elems off at_ len =>
    s.writeTile c t (fun x => x.imagePart elems off (o.bytesAt c at_ len))
  | .rowLoad t off at_ len => s.writeTile c t (fun x => x.patched [(off, o.bytesAt c at_ len)] [])
  | .tripLoad t row at_ => s.writeTile c t (fun x => x.tripled row (o.bytesAt c at_ 528))
  | .tileCfg t w d cur => lands (fun k => k.setTile t ((k.tile t).shaped w d cur))
  | .tileZero t => lands (fun k => k.setTile t (k.tile t).zeroed)
  | .cursor t cur => lands (fun k => k.setTile t { k.tile t with cur := cur })
  | .ldtrRead _ _ off len beat =>
    lands (fun k' => { k' with mbuf := k'.mbuf.put (p.ord * 256 + beat) (k.scratch.read off len) })
  | .ldtrWrite t w =>
    let xs := ldtrElements w (k.bufferedRun (p.ord * 256) 9)
    (s.writeTile c t (fun x => x.patched [(0, packElems 16 (xs.map Prod.fst))] [])).modCore c (fun k =>
      { k.raiseFlags 4 (flagsOf xs) with mbuf := k.mbuf.filter (fun e => e.1 / 256 != p.ord) })
  | .lineRead src h dst patch =>
    match h with
    | some h =>
      if k.stillValid h then
        s.follow c (o.stopPlane c) p (.store (.scratch dst) (patch.foldl (fun l e => l.set e.1 e.2)
          (k.scratch.read src 64))) (banksOf dst 64)
      else gone h
    | none => s.follow c (o.stopPlane c) p (.store (.scratch dst) (k.scratch.read src 64)) (banksOf dst 64)
  | .lineToTile src h t elems total off =>
    if k.stillValid h then s.valueLine c (o.stopPlane c) p t elems total off (k.scratch.read src 64)
    else gone h
  | .tileScales t elems bs => s.writeTile c t (fun x => x.scaled elems bs)
  | .kstat r n => lands (fun k' => k'.setReg r (k.ring n).kstat)
  | .tileToLine t elems total off dst =>
    let x := k.tile t
    let im := x.data.read 0 elems ++ x.side.read 0 (total - elems)
    s.follow c (o.stopPlane c) p (.store (.scratch dst) ((im.drop off).take 64)) (banksOf dst 64)
  | .csr n v => s.csrWrite c n v
  | .fmtPush v =>
    let put (st : Stream) : Stream := { st with fmtq := st.fmtq ++ [v] }
    let st := if p.handler then k.stream else k.saved.getD k.stream
    if p.handler && k.saved.isNone then s
    else if 64 ≤ st.fmtq.length then
      if k.mode == .handler && !p.handler then s
      else s.raise c 7 true 0x0A (w64 (2 ^ 63 + 64)) (s.tide + 1)
    else lands (fun k =>
      match p.handler, k.saved with
      | false, some st => { k with saved := some (put st) }
      | _, _ => { k with stream := put k.stream })
  | .flagBits e f => lands (fun k => k.raiseFlags e f)
  | .ringReserve n m d query =>
    let s := if (((s.core c).ring n).reserveFault m).isSome then s.dropQuery query else s
    s.ringOp c p.eng n p.handler (fun r => r.reserveFault m) (fun r s =>
      (s.placeScans query r).modCore c (fun k =>
        (k.setRing n { r with rsv := r.rsv + BitVec.ofNat 32 m }).setReg d (r.slotWord r.rsv)))
  | .ringPublish n q =>
    s.ringOp c p.eng n p.handler (fun r => r.publishFault q) (fun r s =>
      s.modCore c (fun k => k.setRing n (r.publish q)))
  | .ringRelease n q =>
    s.ringOp c p.eng n p.handler (fun r => r.releaseFault q) (fun r s =>
      s.modCore c (fun k => k.setRing n (r.release q)))
  | .signal f => lands (fun k => { k with flags := vset k.flags f (k.flag f + 1) })
  | .mRead key off len => lands (fun k' => { k' with mbuf := k'.mbuf.put key (k.scratch.read off len) })
  | .mPlane q wt rows key =>
    let x := planeOf wt rows (k.bufferedRun key 16) (k.buffered (key + 128))
    lands (fun k => { k.raiseFlags 2 x.2 with planes := vset k.planes q { x.1 with wt := (vget {} k.planes q).wt } })
  | .mAcc bwd a q row ty key tail =>
    let sb := scaleBytes ty
    let xs := mRowResult (vget {} k.planes q) bwd ty (k.accRow a row) (k.buffered key)
      (((k.buffered tail).drop (row * sb)).take sb)
    lands (fun k => (k.setAccRow a row (xs.map Prod.fst)).raiseFlags 2 (flagsOf xs))
  | .mDrain a row t trow w sc z ctx =>
    let xs := drained (shapeType w) row sc ctx (k.accRow a row)
    let s := s.writeTile c t (fun x =>
      x.patched [(trow * rowBytes w, packElems (elemBits (shapeType w)) (xs.map Prod.fst))] [])
    s.modCore c (fun k =>
      let k := k.raiseFlags 2 (flagsOf xs)
      if z then k.setAccRow a row (List.replicate 128 0) else k)
  | .mClear a rows => lands (fun k => (List.range rows).foldl (fun k r =>
      k.setAccRow a r (List.replicate 128 0)) k)
  | .mRetire n keys =>
    let s := lands (fun k => { k with mbuf := k.mbuf.filter (fun e => !keys.contains e.1) }.setRing n
      { k.ring n with mread := (k.ring n).mread - 1 })
    s.ringOp c p.eng n p.handler Ring.popFault (fun r s => s.modCore c (fun k => k.setRing n r.pop))
  | .planeClash _ => s
  | .kvaRead off req =>
    let token := k.scratch.read off 512
    { s with msgs := s.msgs.map (fun m =>
        if m.id = req then
          match m.kind with
          | .kvAppend page tag start fmt _ range =>
            { m with kind := .kvAppend page tag start fmt token range }
          | _ => m
        else m) }
  | .spawnRead req off =>
    let ws := words64 8 (k.scratch.read off 64)
    lands (fun (k : Core) => { k with reqs := k.reqs.map (fun (q : GReq) =>
      if q.id = req then
        match q.op with
        | .spawn r b _ => { q with op := .spawn r b ws }
        | _ => q
      else q) })
  | .kvBeat n lock off head =>
    s.follow c (o.stopPlane c) p (.kvSegment n (segmentOf lock (head ++ k.scratch.read off 64))) []
  | .kvSegment n g => lands (fun k => { k with kvseg := vset k.kvseg n g })
  | .kvUnlock n => lands (fun k =>
      let g := vget {} k.kvseg n
      { k with kvseg := vset k.kvseg n { g with desc := setBits g.desc 62 62 0 } })

/-! ### Conflicts (R156, R159, R371) -/

/-- The first conflict among operations in issue order: the bank, or 32 for the cohort slot, and the two
uses. -/
def bankClash (ps : List Perform) : Option (Nat × Perform × Perform) :=
  (List.range 33).findSome? (fun b =>
    match ps.flatMap (fun p => (p.banks.filter (· == b)).map (fun _ => p)) with
    | p :: q :: _ => some (b, p, q)
    | _ => none)

/-- FINFO of a conflict (R140). -/
def clashInfo (kind bank first later : Nat) : W64 :=
  w64 (kind * 2 ^ 16 + later % 8 * 2 ^ 12 + first % 8 * 2 ^ 8 + bank)

/-- The fault of a conflict among the operations of a core that fall due: FINFO, QUEUE, and whether a
handler's operation raised it. -/
def clashOf (ps : List Perform) : Option (W64 × Nat × Bool) :=
  match bankClash ps with
  | some (b, p, q) =>
    some (if b = cohortSlot then clashInfo 1 0 p.eng q.eng else clashInfo 0 b p.eng q.eng, q.eng, q.handler)
  | none =>
    ps.findSome? (fun p =>
      match p.op with
      | .planeClash q => some (clashInfo 2 q 2 2, 2, p.handler)
      | _ => none)

/-- Operations in issue order. -/
def byIssue (ps : List Perform) : List Perform := sortBy (fun p q => decide (p.ord ≤ q.ord)) ps

/-- The operations of a core that fall due at a tide. -/
def Core.dueAt (k : Core) (t : Nat) : List Perform := k.inflight.filter (fun p => p.at_ == t)

/-- Whether an operation is the mark of a plane's forbidden overlap, which is raised once. -/
def POp.clash : POp → Bool
  | .planeClash _ => true
  | _ => false

/-- A conflict among what a core performs at this tide: it faults, where it has not faulted before, and every
operation of the requester that QUEUE names is captured from this tide on, a use of banks alone included (R156).
The core issues nothing from `stop` on. -/
def State.conflict (s : State) (c stop : Nat) : State :=
  let k := s.core c
  match clashOf (byIssue (k.dueAt s.tide)) with
  | none => s
  | some (info, eng, handler) =>
    if k.mode == .handler && !handler then s
    else
      let due (p : Perform) : Bool := p.at_ == s.tide && p.op.clash
      let late (p : Perform) : Bool :=
        (p.exposed || p.op == .use) && p.eng == eng && decide (s.tide ≤ p.at_) && !due p
      let s := s.modCore c (fun k => { k with
        inflight := k.inflight.filter (fun p => !late p && !due p)
        captured := k.captured ++ k.inflight.filter late })
      if k.ownFault then s else s.raise c eng false 0x05 info stop

/-! ### A tide -/

/-- The order of the writes of a tide (R126, R160): the status register FLAGS is cleared before bits are
set (R283), then ascending engine and issue. -/
def Perform.before (p q : Perform) : Bool :=
  let key (p : Perform) : Nat :=
    match p.op with
    | .csr 0x20 _ => 0
    | _ => p.eng + 1
  decide (key p < key q) || (key p == key q && decide (p.ord ≤ q.ord))

/-- What a core performs at this tide. -/
def State.performCore (o : State) (c : Nat) (s : State) : State :=
  let ps := sortBy Perform.before ((s.core c).dueAt s.tide)
  let s := s.modCore c (fun k => { k with inflight := k.inflight.filter (fun p => p.at_ != s.tide) })
  ps.foldl (fun s p => o.performOne c p s) s

/-- The cores in ascending cohort and position (R160). -/
def coresByPosition : List Nat :=
  (List.range 32).flatMap (fun h => (List.range 8).map (fun p => coreAt h p))

/-- Cores with an operation that falls due at this tide. -/
def State.performing (s : State) : List Nat :=
  coresByPosition.filter (fun c => (s.core c).inflight.any (fun p => p.at_ == s.tide))

/-- Whether what a core has in flight will make it fault at this tide, whatever it issues (R137). -/
def State.faultsNow (probe s : State) (c : Nat) : Bool := (probe.core c).stopAt != (s.core c).stopAt

/-- Everything that performs at this tide. -/
def State.performAll (s : State) : State :=
  let cs := s.performing
  let o := cs.foldl (fun s c => s.conflict c (s.tide + 1)) s
  cs.foldl (fun s c => o.performCore c s) o

end Sys2Proof.Machine
end

