-- ==== Sys2Proof/Machine/Issue.lean ====
section
/-!
DEFINITION. Issue groups (R124, R300, R304, R305), the guard and the words of a group (R297, R298), the
held tiles of a handler (R145), pending destinations (R383), and the presence checks (R133 to R136,
R146, R147).
-/

namespace Sys2Proof.Machine

/-! ### The heads that issue at a tide -/

/-- The word that a queue issues at a tide: its GUARD, if it has one, and the word. -/
def Queue.ready (q : Queue) (t : Nat) : Option (Option QWord × QWord) :=
  if q.arrived then none
  else
    match q.head with
    | some (g, w) => if q.issueTide w ≤ t then some (g, w) else none
    | none => none

/-- The words of the issue group of a core at a tide, in ascending engine. -/
def Core.group (k : Core) (t : Nat) : List (Nat × Option QWord × QWord) :=
  (List.range 8).filterMap (fun e => ((k.queue e).ready t).map (fun h => (e, h.1, h.2)))

/-- Whether a core may issue: it runs its stream or its handler, or has halted with words in other queues
(R318). -/
def Core.active (k : Core) : Bool := k.mode == .running || k.mode == .handler || k.mode == .halted

/-- Whether a core issues at this tide. -/
def Core.issuing (k : Core) (t : Nat) : Bool :=
  k.active &&
  (match k.stopAt with
   | some x => decide (t < x)
   | none => true) &&
  (match k.stream.wait with
   | some w => decide (t ≤ w.f)
   | none => true)

/-- The instruction of a word, if it is one. -/
def QWord.instr (w : QWord) : Option Instr := (decode w.word).toOption

/-- The operands of a word. -/
def QWord.operands (w : QWord) : Operands := (w.instr.map Machine.operands).getD {}

/-! ### Encoding checks (R300, R301) -/

/-- What stops a word from issuing before its state is looked at: an encoding fault, or the trap 0x17. -/
def encodingFault (w : QWord) (f : Fate) : Option (Nat × W64) :=
  let at_ := w.addr % 2 ^ 14 * 2 ^ 32 + w.word.toNat
  if isGuard w.word && w.bad then some (1, w64 at_)
  else
    match f with
    | .illegal => some (1, w64 at_)
    | .reserved p => some (2, w64 (p * 2 ^ 48 + at_))
    | .instr _ => none

/-- A core whose queue stands past a word and its GUARD. -/
def Core.past (k : Core) (e : Nat) (g : Option QWord) : Core :=
  k.setQueue e { k.queue e with words := (k.queue e).words.drop (if g.isSome then 2 else 1) }

/-- The 0x17 fates of a word: a gate-class word that is the second of its segment or that no GATE of its queue
follows directly, a destination in s24 to s31, and an iteration that would overrun (R129, R303, R315). -/
def State.shapeFate (s : State) (c e : Nat) (g : Option QWord) (w : QWord) : Bool :=
  let k := s.core c
  let o := w.operands
  (o.gate && (k.stream.gate.word.isSome || !((s.queueNext c e (k.past e g)).map isGate).getD false))
    || o.writes.any (fun r => decide (24 ≤ r)) || (k.queue e).overrun w

/-- The first fate of R300 that stops a head of a core's queue: its code and FINFO. -/
def State.fateOf (s : State) (c e : Nat) (g : Option QWord) (w : QWord) : Option (Nat × W64) :=
  match g.bind (fun g => encodingFault g (decode g.word)) with
  | some f => some f
  | none =>
    match encodingFault w (decode w.word) with
    | some f => some f
    | none => if s.shapeFate c e g w then some (0x17, w64 (w.addr % 2 ^ 14)) else none

/-! ### Read ports (R304, R305) -/

/-- The registers that a head reads, the guard's first. -/
def headReads (g : Option QWord) (w : QWord) : List Nat :=
  (match g.bind QWord.instr with
   | some i => (operands i).reads
   | none => []) ++ w.operands.reads

/-- The first engine and register of a group that finds its bank's ports taken. -/
def portClash : List (Nat × Nat) → List Nat → Option (Nat × Nat)
  | [], _ => none
  | (e, r) :: rest, taken =>
    match portConflict [r] taken with
    | some _ => some (e, r)
    | none => portClash rest (if r = 0 || taken.contains r then taken else taken ++ [r])

/-! ### Pending destinations (R383) -/

/-- The source that an engine command's descriptor names. -/
def Core.commandSource (k : Core) (p : W64) : List W64 :=
  match k.ownRegion p 128 with
  | .ok off =>
    let ws := words64 16 (k.scratch.read off 128)
    if cmdReads ws then [cmdSrc ws] else []
  | .error _ => []

/-- The values that a checkpoint's list carries. -/
def Core.carriedHandles (k : Core) (p : W64) : List W64 :=
  match k.ownRegion p 64 with
  | .ok off =>
    let n := Nat.min (wbits (w64 (natOfBytes (k.scratch.read off 8))) 5 0) 32
    (carried (words64 (8 + 2 * n) (k.scratch.read off (64 + 16 * n)))).map Prod.fst
  | .error _ => []

/-- The value handles through which a word reads. -/
def handleOperand (k : Core) : Instr → List W64
  | .tldv _ _ y => [k.reg y.toNat]
  | .upd _ _ y _ => [k.reg y.toNat]
  | .updr _ _ y _ _ => [k.reg y.toNat]
  | .ldg _ _ b x _ _ => [k.reg b.toNat + k.reg x.toNat]
  | .stv _ s _ _ => [k.reg s.toNat]
  | .ldaq _ _ a _ _ _ _ => [k.reg a.toNat]
  | .ecmd _ a => k.commandSource (k.reg a.toNat)
  | .ckpt _ a => if a = 0 then [] else k.carriedHandles (k.reg a.toNat)
  | _ => []

/-- The value that a handle of this core names. -/
def Core.handleBlock (k : Core) (h : W64) : Option Nat :=
  match spaceOf h with
  | .value c _ b => if c = k.vid then some b else none
  | _ => none

/-- The destinations that a head reads or writes. -/
def Core.touches (k : Core) (g : Option QWord) (w : QWord) : List PendDest :=
  (headReads g w ++ w.operands.writes).map PendDest.reg ++ w.operands.tiles.map PendDest.tile ++
  ((w.instr.map (handleOperand k)).getD []).filterMap (fun h => (k.handleBlock h).map PendDest.value)

/-- The index of R140 for a pending destination. -/
def PendDest.index : PendDest → Nat
  | .tile t => t
  | _ => 0

/-- The first pending destination among some. -/
def Core.pendingAmong (k : Core) (ds : List PendDest) : Option Pending :=
  ds.findSome? (fun d => k.pend.find? (fun p => p.dest == d))

/-- The destination that a word which issues at t may not use yet, because its mark is at most H old. -/
def Core.tooSoon (k : Core) (h t : Nat) (ds : List PendDest) : Option PendDest :=
  (k.pendingAmong (ds.filter (fun d => k.pend.any (fun p => p.dest == d && decide (t ≤ p.marked + h))))).map
    Pending.dest

/-! ### The group of a core -/

/-- A stop of the whole group: no word of it issues (R300, R305). -/
def State.stopGroup (s : State) (c e code : Nat) (info : W64) : State :=
  if code = 1 || code = 2 then
    { s with now := .event (.illegalWord c e (BitVec.ofNat 8 code) info) 0 :: s.now }
  else s.raise c e true code info s.tide

/-- Whether a GUARD holds its word back (R297). -/
def Core.heldBack (k : Core) (g : Option QWord) : Bool :=
  match g.bind QWord.instr with
  | some (.guard _ r b v) => (k.reg r.toNat).getLsbD b.toNat == (v == 1)
  | _ => false

/-- Whether a handler may not issue a word (R190, R379, R431): it then accesses no tile. -/
def handlerRefuses : Instr → Bool
  | .send .. => true
  | .tmkv .. => true
  | .updr .. => true
  | .mdrn _ _ _ _ _ z => z == 1
  | _ => false

/-- Whether the format queue stops a word of the M engine before its tiles are looked at (R364). -/
def Core.formatStops (k : Core) : Instr → Bool
  | .mhad .. => !k.formatGood 5
  | .mqnt .. => !k.formatGood 6
  | .mdrn .. => !k.formatGood 7
  | _ => false

/-- Whether a handler's word traps before it accesses a tile. -/
def Core.barred (k : Core) (w : QWord) : Bool := w.instr.any (fun i => handlerRefuses i || k.formatStops i)

/-- Tiles that the words of a group access and the handler has not touched before (R145). -/
def Core.heldTouched (k : Core) (ws : List (Nat × Option QWord × QWord)) : List Nat :=
  ((ws.flatMap (fun x =>
    if k.heldBack x.2.1 || k.barred x.2.2 then []
    else x.2.2.operands.tiles)).filter (fun n => (k.tile n).held)).eraseDups

/-- Bytes on their way into a core's scratchpad as untimed data, line by line (R157). -/
def Core.bring (k : Core) (id since off : Nat) (bs : List Byte) : Core :=
  { k with arriving := k.arriving ++ (cutsAt 64 off bs).map (fun x => ⟨id, since, x.1, x.2⟩) }

/-- Bytes of a core's scratchpad that hardware reads as untimed data, line by line (R157). -/
def Core.readLines (k : Core) (id since off n : Nat) : Core :=
  { k with arriving := k.arriving ++ (linesOf off n).map (fun l => ⟨id, since, 64 * l, []⟩) }

/-- Whether data under a number is still on its way, and its end where what it is for has gone. -/
def Core.awaitsData (k : Core) (id : Nat) : Bool := k.arriving.any (fun a => a.id == id)
def Core.dropData (k : Core) (id : Nat) : Core := { k with arriving := k.arriving.filter (fun a => a.id != id) }

/-- A held tile passes to the handler, saved first where it is dirty: its lines go to its slot as untimed data (R145,
R157). -/
def State.takeHeld (s : State) (c n : Nat) : State :=
  let t := (s.core c).tile n
  let (i, s) := if t.d then s.number else (0, s)
  s.modCore c (fun k =>
    let k := if t.d then (k.bring i s.tide (k.saveData n) (t.data.read 0 8192)).bring i s.tide (k.saveSide n)
      (t.side.read 0 512) else k
    k.setTile n { t with held := false, d := false, ret := some (t.shape, t.cur, t.z) })

/-- The handler's issue held back by 4 tc, which SLIP does not count. -/
def Core.waitSave (k : Core) : Core :=
  { k with
    tbase := k.tbase + 4
    stream := { k.stream with queues := k.stream.queues.map (fun q =>
      { q with nxt := q.nxt + 4, qentry := q.qentry.map (fun e => (e.1, e.2 + 4)) }) } }

/-- Whether a tile's save slot meets the value heap (R189). -/
def Core.saveRefused (k : Core) (n : Nat) : Bool :=
  k.touchesHeap (k.saveData n) 8192 || k.touchesHeap (k.saveSide n) 512

/-- The first access of a handler to held tiles (R145): whether the group has to wait, and the state. A save over
the value heap ends the task with 0x0F (R142, R189). Several tiles of one group share one wait (DESIGN CHOICE,
log 61). -/
def State.takeTiles (s : State) (c : Nat) (ts : List Nat) : Bool × State :=
  let k := s.core c
  if ts.any (fun n => (k.tile n).d) then
    if wbit k.tsave 31 && ts.any (fun n => (k.tile n).d && k.saveRefused n) then
      (true, s.fail c 0x0F (BitVec.ofNat 32 k.vid))
    else if wbit k.tsave 31 then (true, (ts.foldl (fun s n => s.takeHeld c n) s).modCore c Core.waitSave)
    else
      (true, s.fail c (wbits k.fcause 7 0) (BitVec.ofNat 32 k.vid))
  else (false, ts.foldl (fun s n => s.takeHeld c n) s)

/-- The gate-class words of a group behind the first one: each is a second one of its segment (R129). -/
def secondGates (ws : List (Nat × Option QWord × QWord)) : List Nat :=
  ((ws.filter (fun x => x.2.2.operands.gate)).drop 1).map Prod.fst

/-- The fate of a word of a group (R300): its own, or 0x17 where a gate-class word stands before it. -/
def State.groupFate (s : State) (c : Nat) (second : List Nat) (x : Nat × Option QWord × QWord) :
    Option (Nat × Nat × W64) :=
  match s.fateOf c x.1 x.2.1 x.2.2 with
  | some f => some (x.1, f)
  | none => if second.contains x.1 then some (x.1, 0x17, w64 (x.2.2.addr % 2 ^ 14)) else none

/-- What stops a whole group of words of a core (R300, R305): the engine, the code and FINFO. -/
def State.groupFault (s : State) (c : Nat) (ws : List (Nat × Option QWord × QWord)) : Option (Nat × Nat × W64) :=
  (ws.findSome? (s.groupFate c (secondGates ws))).or
    ((portClash (ws.flatMap (fun x => (headReads x.2.1 x.2.2).map (fun r => (x.1, r)))) []).map (fun x =>
      (x.1, 0x04, w64 (x.2 % 4 * 32 + x.2))))

/-- The issue group of a core at this tide: its traps, or the issue of its words in ascending engine. -/
def State.groupCheck (s : State) (c : Nat) : State :=
  let k := s.core c
  let ws := k.group s.tide
  match s.groupFault c ws with
  | some (e, code, info) => s.stopGroup c e code info
  | none =>
      let issue (s : State) : State := { s with now := ws.map (fun x => Act.issue c x.1) ++ s.now }
      if k.mode == .handler then
        match s.takeTiles c (k.heldTouched ws) with
        | (true, s) => s
        | (false, s) => issue s
      else issue s

/-! ### Issuing a word -/

/-- A queue's word taken from it: the state in which the word's meaning acts. -/
def State.begin (s : State) (c e : Nat) (g : Option QWord) (w : QWord) : State :=
  let q := (s.core c).queue e
  let q' := ({ q with words := if g.isSome then q.words.drop 1 else q.words }).advance w
  { s.modCore c (fun k => { k.setQueue e q' with ord := k.ord + 1 }) with
    cur := ⟨c, e, w, { q with guard := none }⟩ }

/-- The precise trap of a pending destination (R383), for the head of a queue. -/
def State.trapPending (s : State) (c e : Nat) (w : QWord) (d : PendDest) : State :=
  let s := { s with cur := ⟨c, e, w, { (s.core c).queue e with guard := none }⟩ }
  s.trap 0x06 (missInfo 3 d.index s.tide (s.core c).tbase)

/-- The tiles that a word reads: all that it touches, but for the destinations that it only writes. -/
def tilesRead : Instr → List Nat
  | .vfma a b c d e f g h i => (operands (.vfma a b c d e f g h i)).tiles
  | .vsel a b c d e f g h => (operands (.vsel a b c d e f g h)).tiles
  | .vsortk _ _ a _ _ _ _ _ => [a.toNat]
  | .tmkv _ _ y => [y.toNat]
  | .updr _ _ _ z _ => [z.toNat]
  | .stt _ t _ _ _ _ | .redRow _ t _ _ _ _ | .sct _ t _ _ _ | .bws _ t _ => [t.toNat]
  | i => (operands i).tiles.drop 1

/-- An absent tile that a handler's word reads where software reloads tiles (R146): a handler reloads one
by writing it. A tile that is not configured, before it in the order of the operands, traps first (R341). -/
def Core.absentRead (k : Core) (w : QWord) : Option Nat :=
  let reads := (w.instr.map tilesRead).getD []
  let absent (n : Nat) : Bool := (k.tile n).a && reads.contains n
  if k.mode == .handler && k.trest && !k.barred w then
    (w.operands.tiles.find? (fun n => !(k.tile n).c || absent n)).filter (fun n => (k.tile n).c)
  else none

/-- A word that its guard holds back (R298); a gate-class one leaves its segment a plain gate. -/
def State.guardedOff (s : State) (c e : Nat) (g : Option QWord) (w : QWord) : State :=
  let s := s.begin c e g w
  if w.operands.gate then
    s.modCore c (fun k => { k with stream := { k.stream with
      gate := { k.stream.gate with word := some w.addr } } })
  else s

/-- The head of a queue issues: the instruction whose meaning follows, if any, and the state. -/
def State.issueHead (s : State) (c e : Nat) : Option Instr × State :=
  let k := s.core c
  let q := k.queue e
  match q.head with
  | none => (none, s)
  | some (g, w) =>
    match s.fateOf c e g w with
    | some (code, info) => (none, s.stopGroup c e code info)
    | none =>
      match g.bind QWord.instr, q.guard with
      | some i, none =>
        match k.tooSoon (s.horizon c) s.tide (((operands i).reads).map PendDest.reg) with
        | some d => (none, s.trapPending c e w d)
        | none => (some i, { s with cur := ⟨c, e, w, { q with guard := none }⟩ })
      | _, run =>
        if run.getD true then
          match k.tooSoon (s.horizon c) s.tide (k.touches none w) with
          | some d => (none, s.trapPending c e w d)
          | none =>
            match k.absentRead w with
            | some n => (none, { s with cur := ⟨c, e, w, { q with guard := none }⟩ }.trap 0x08 (w64 (n + 16)))
            | none => (w.instr, s.begin c e g w)
        else (none, s.guardedOff c e g w)

/-! ### Presence (R133, R134, R146) -/

/-- Whether a word is RRES. -/
def isRres (w : QWord) : Bool :=
  match w.instr with
  | some (.rres ..) => true
  | _ => false

/-- Words of a ring that a queue issues before a place among its words, and that reserve a slot as RRES or read the
next one as an M word. -/
def ringsBefore (ws : List (Option QWord × QWord × Nat)) (n : Nat) (rres : Bool) (i : Nat) : Nat :=
  (ws.take i).countP (fun x => x.2.1.operands.ring == some n && isRres x.2.1 == rres)

/-- Ring publications and releases that perform at a tide (R147). -/
def Core.publishing (k : Core) (n t : Nat) : Ring :=
  (k.dueAt t).foldl (fun r p =>
    match p.op with
    | .ringPublish m q => if m = n && (r.publishFault q).isNone then r.publish q else r
    | .ringRelease m q => if m = n && (r.releaseFault q).isNone then r.release q else r
    | _ => r) (k.ring n)

/-- The ring operands of a word that are not there: `i` is its place among the words of its queue. -/
def Core.ringMissing (k : Core) (c tide : Nat) (ws : List (Option QWord × QWord × Nat)) (i : Nat)
    (w : QWord) : List Missing :=
  match w.instr, w.operands.ring with
  | some (.rres ..), some n =>
    let r := k.publishing n tide
    let p := r.rsv + BitVec.ofNat 32 (ringsBefore ws n true i + k.reserving n)
    if r.enabled && decide (r.slots ≤ (p - r.rel).toNat) then [.room c n p] else []
  | some (.rpub ..), _ => []
  | some (.rrel ..), _ => []
  | some (.rcon ..), _ => []
  | some _, some n =>
    let r := k.publishing n tide
    let p := r.mPosition + BitVec.ofNat 32 (ringsBefore ws n false i)
    if r.enabled && decide (r.filled ≤ (p - r.con).toNat) then [.slot c n p] else []
  | _, _ => []

/-- Pending destinations of a word that issues at t. -/
def Core.destMissing (k : Core) (c h t : Nat) (ds : List PendDest) : List Missing :=
  (k.pend.filter (fun p => ds.contains p.dest && decide (p.marked + h < t) &&
    !((p.fixed.map (fun f => decide (f < t))).getD false))).map (fun p => .dest c p.dest)

/-- Absent tiles of a word, where the hardware reloads them. -/
def Core.tileMissing (k : Core) (c : Nat) (ts : List Nat) : List Missing :=
  if k.trest then []
  else (ts.eraseDups.filter (fun n => (k.tile n).a)).map (fun n => .tile c n)

/-- Whether a Y word makes an access at a fixed tide: of scratchpad or cohort memory, or of a flag within the
gang, whose virtual core ids `gang` holds of. -/
def timedWord (k : Core) (gang : Nat → Bool) : Instr → Bool
  | .ldaq _ _ a _ _ _ _ => timed a
  | .strl _ _ a _ _ _ => timed a
  | .atom _ _ a _ _ _ _ => timed a
  | .cas _ _ a _ _ _ => timed a
  | .rul _ a _ _ => timed a
  | .wul _ a _ _ => timed a
  | .fill _ a _ _ _ => timed a
  | .sigf _ _ a _ _ => !wbit (k.reg a.toNat) 8 || gang (wbits (k.reg a.toNat) 7 0)
  | _ => false
where
  timed (a : BitVec 5) : Bool :=
    match spaceOf (k.reg a.toNat) with
    | .global _ => false
    | _ => true

/-- Whether a word is a release at device or system scope. -/
def releaseWord : Instr → Bool
  | .strl _ _ _ _ c o => wide c o
  | .atom _ _ _ _ _ c o => wide c o
  | .cas _ _ _ _ c o => wide c o
  | .rul _ _ c o => wide c o
  | .wul _ _ c o => wide c o
  | .fill _ _ _ c o => wide c o
  | .sigf _ _ _ c o => wide c o
  | _ => false
where
  wide (c : BitVec 3) (o : BitVec 2) : Bool := decide (3 ≤ c.toNat) && releases o

/-- Whether a word is a near-memory request (R196). -/
def nearWord : Instr → Bool
  | .red .. => true
  | .redRow .. => true
  | .kva .. => true
  | .kvr .. => true
  | .bws .. => true
  | .bwc .. => true
  | .bwa .. => true
  | _ => false

/-- Whether near-memory requests of a lower engine than Y issue at a tide. -/
def Core.nearNow (k : Core) (t : Nat) : Bool :=
  (k.group t).any (fun x => decide (x.1 < 6) && !k.heldBack x.2.1 && (x.2.2.instr.map nearWord).getD false)

/-- Acknowledgements that had not landed by tide `by_` though a timed access of a Y word that issues now follows them
(R411): where it is a release at device or system scope, those of every earlier request, one that issues in the same
tc included, which nothing can bring while the core stands still (log 70; a handler leaves that one out, log 14); else
those that an earlier RFENCE waits for. -/
def Core.acksMissing (k : Core) (c by_ tide : Nat) (gang : Nat → Bool) (w : QWord) : List Missing :=
  if !(w.instr.map (timedWord k gang)).getD false then []
  else
    let release := (w.instr.map releaseWord).getD false
    let fences := (k.reqs.filter (fun r => r.op == .rfence)).map GReq.id
    let upto := if release then k.near.foldl (fun m r => Nat.max m (r.id + 1)) 0 else fences.foldl Nat.max 0
    (if k.nearBefore upto || decide (by_ < if release then k.ackedAt else k.fencedAt) then [.acks c upto] else []) ++
    (if release && k.mode != .handler && k.nearNow tide then [.unissued c] else [])

/-- What a word that issues at t still lacks. -/
def Core.wordMissing (k : Core) (c h tide : Nat) (ws : List (Option QWord × QWord × Nat)) (i : Nat)
    (x : Option QWord × QWord × Nat) : List Missing :=
  k.ringMissing c tide ws i x.2.1 ++ k.destMissing c h x.2.2 (k.touches x.1 x.2.1) ++
  k.tileMissing c x.2.1.operands.tiles

def PendDest.isValue : PendDest → Bool
  | .value _ => true
  | _ => false

/-- What a word that issues now lacks, as its registers and what has issued show only now: a value whose handle came
within the horizon, and acknowledgements that had not landed at its check (R133, R411). -/
def Core.lateMissing (k : Core) (c h tide : Nat) (gang : Nat → Bool) (x : Option QWord × QWord × Nat) : List Missing :=
  k.destMissing c h x.2.2 ((k.touches x.1 x.2.1).filter PendDest.isValue) ++
  k.acksMissing c (Nat.max (tide - h) k.gateOpen) tide gang x.2.1

/-- Index and kind of a missing operand (R133, R140). -/
def Missing.info : Missing → Nat × Nat
  | .slot _ n _ => (if n = 15 then 1 else 0, n)
  | .room _ n _ => (0, n)
  | .word _ _ _ => (2, 0)
  | .dest _ d => (3, d.index)
  | .tile _ t => (4, t)
  | .acks _ _ => (3, 0)
  | .unissued _ => (3, 0)
  | .hold _ _ => (3, 0)
  | .buffer _ => (3, 0)

/-- What is missing for the words of a queue that the window takes in, and for the one that issues now: the tide,
the engine, the operands. -/
def Core.queueMissing (k : Core) (ahead : Core) (c h tide : Nat) (gang : Nat → Bool) (e : Nat) :
    List (Nat × Nat × List Missing) :=
  let ws := (k.queue e).upcoming (tide + h) 200
  let late := ((ahead.queue e).upcoming (tide + h) 200).drop ws.length
  (ws.zipIdx.filterMap (fun x =>
    let m := (if k.checked < x.1.2.2 then k.wordMissing c h tide ws x.2 x.1 else []) ++
      (if x.1.2.2 ≤ tide then k.lateMissing c h tide gang x.1 else [])
    if m.isEmpty then none else some (x.1.2.2, e, m))) ++
  (late.take 1).map (fun x => (Nat.max x.2.2 tide, e, [Missing.word c e x.2.2]))

end Sys2Proof.Machine
end

