-- ==== Sys2Proof/Machine/Home.lean ====
section
/-!
DEFINITION. Global memory at its homes: reads and writes of a target (R36, R37, R42, R172), errors of
lines (R223, R235), the landings and acknowledgements of a core's global accesses (R174, R383, R410),
of its near-memory requests (R207) and of status replies, and the arrival of flag signals (R421).
-/

namespace Sys2Proof.Machine

/-! ### Lines of device memory -/

/-- The offset in a run of its first byte in an uncorrectable line. -/
def State.badAt (s : State) (addr n : Nat) : Option Nat :=
  ((linesOf addr n).find? s.badLine).map (fun l => Nat.max (64 * l) addr - addr)

/-- Lines of a run whose read is corrected. -/
def State.correctedIn (s : State) (addr n : Nat) : Nat :=
  (linesOf addr n).countP (fun l => s.corrected.contains l && !s.badLine l)

/-- Lines that a write covers whole, whose content is then defined again (log 13). -/
def State.cleaned (s : State) (addr n : Nat) : State :=
  { s with poison := s.poison.filter (fun l => !(addr ≤ 64 * l && 64 * l + 64 ≤ addr + n)) }

/-! ### Reads and writes of a target -/

/-- What a read of a target gives: bytes, or the offset of its first uncorrectable byte, or the refusal
of another package (R42). -/
inductive Fetched where
  | data (bs : List Byte)
  | bad (off : Nat)
  | refused
  deriving DecidableEq, Repr

/-- Bytes that lie outside the package (log 8). -/
def State.remoteBytes (s : State) (n : Nat) : List Byte :=
  (List.range n).map (fun i => (Config.remoteData s.fresh n).getD i 0)

/-- An access to another package (R36, R38): it leaves through the station of its die, or is refused. -/
def State.remoteAccess (s : State) (die part pod off n : Nat) (op : RemoteOp) : Fetched × State :=
  match s.station die pod with
  | none => (.refused, s)
  | some st =>
    let r := if Config.remoteRefuses s.fresh then .refused else .data (s.remoteBytes n)
    (r, { s with
      outgoing := s.outgoing ++ [.access die pod st Config.podIndex.toNat part off op]
      fresh := s.fresh + 1 })

/-- A read of `n` bytes of a target, for an agent of a die. -/
def State.fetchTarget (s : State) (die : Nat) (t : Target) (n : Nat) : Fetched × State :=
  match t with
  | .device a =>
    match s.badAt a n with
    | some off => (.bad off, s.uncorrectableRead (s.bankOf (a + off)))
    | none => (.data (s.device.read a n), s)
  | .cipher a slot =>
    match s.badAt a n with
    | some off => (.bad off, s.uncorrectableRead (s.bankOf (a + off)))
    | none => (.data (s.openBytes slot a n), s)
  | .host a => (.data (s.host.read a n), s)
  | .pod q p off => s.remoteAccess die q p off n (.read n)
  | .transport _ _ => (.data (s.remoteBytes n), { s with fresh := s.fresh + 1 })

/-- A write to a target, and whether another package refused it. -/
def State.storeTarget (s : State) (die : Nat) (t : Target) (bs : List Byte) : Bool × State :=
  match t with
  | .device a => (true, { s with device := s.device.write a bs }.cleaned a bs.length)
  | .cipher a slot => (true, (s.sealBytes slot a bs).cleaned a bs.length)
  | .host a => (true, s.writeHost a bs)
  | .pod q p off =>
    match s.remoteAccess die q p off 0 (.write bs) with
    | (.refused, s) => (false, s)
    | (_, s) => (true, s)
  | .transport p off => (true, { s with
      outgoing := s.outgoing ++ [.ethernet s.fresh p off bs]
      fresh := s.fresh + 1 })

/-- Whether a record of a function's work goes to host memory while a function-level reset of the function is under
way (R64). -/
def State.recordHeld (s : State) (vf : Nat) (t : Target) : Bool :=
  match t with
  | .host _ => (s.func vf).flr
  | _ => false

/-- A completion record of a function's request, unless a function-level reset holds it back (R64). -/
def State.storeRecord (s : State) (die vf : Nat) (t : Target) (bs : List Byte) : State :=
  if s.recordHeld vf t then s else (s.storeTarget die t bs).2

/-- The corrected lines that a read of a target meets. -/
def State.targetCorrected (s : State) (t : Target) (n : Nat) : Nat :=
  match t.dpa with
  | some a => s.correctedIn a n
  | none => 0

/-- How an atomic operation crosses to another package: the operations of R414, then those on locks and
futures (log 8). -/
def remoteOp : Rmw → RemoteOp
  | .atom op w v => .atomic (BitVec.ofNat 4 op) w v
  | .cas e n => .cas e n
  | .rul => .atomic 9 false 0
  | .wul => .atomic 10 false 0
  | .rlk => .atomic 11 false 0
  | .wlk reg => .atomic 12 false (if reg then 1 else 0)
  | .withdraw => .atomic 13 false 0
  | .fill v => .atomic 14 false v
  | .take => .atomic 15 false 0

/-- An atomic operation on the unit of a target (R410): its result, or what stopped it. -/
def State.atomicTarget (s : State) (die : Nat) (t : Target) (op : Rmw) : Except Fetched RmwResult × State :=
  match t with
  | .pod q p off =>
    match s.remoteAccess die q p off op.size (remoteOp op) with
    | (.data bs, s) => (.ok (op.apply bs), s)
    | (f, s) => (.error f, s)
  | _ =>
    match s.fetchTarget die t op.size with
    | (.data bs, s) =>
      let r := op.apply bs
      match r.new with
      | some x => (.ok r, (s.storeTarget die t x).2)
      | none => (.ok r, s)
    | (f, s) => (.error f, s)

/-! ### Virtual addresses without a translation buffer -/

/-- A run of bytes of a virtual space cut at 64 KiB boundaries. -/
def runsOf (va n : Nat) : List (Nat × Nat) :=
  (pageCuts va (List.replicate n 0)).map (fun x => (x.1, x.2.length))

/-- The cause of a read that gives no data (R42, R235). -/
def Fetched.cause : Fetched → Nat
  | .bad _ => 0x19
  | _ => 0x0E

/-- A read of a virtual address by hardware: the bytes, or the cause that stops it. -/
def State.readRuns (s : State) (p die : Nat) : List (Nat × Nat) → Except Nat (List Byte) × State
  | [] => (.ok [], s)
  | (va, n) :: rest =>
    match s.walk p die .load va with
    | .error w => (.error w.cause, s.countTables p [va])
    | .ok l =>
      match s.fetchTarget die (l.target va) n with
      | (.data bs, s) =>
        match s.readRuns p die rest with
        | (.ok more, s) => (.ok (bs ++ more), s)
        | r => r
      | (f, s) => (.error f.cause, s)

def State.readVirtual (s : State) (p die va n : Nat) : Except Nat (List Byte) × State :=
  s.readRuns p die (runsOf va n)

/-- Bytes stored through translated pieces, in order. -/
def State.storeParts (s : State) (die : Nat) (ps : List (Piece × List Byte)) : State :=
  ps.foldl (fun s x => (s.storeTarget die x.1.target x.2).2) s

/-- A write to a virtual address by hardware: whether it was made, and the cause if not. -/
def State.writeVirtual (s : State) (p die va : Nat) (bs : List Byte) : Option Nat × State :=
  match s.hardWrite p die .store (pageCuts va bs) with
  | .error (code, _) => (some code, s.countTables p ((pageCuts va bs).map Prod.fst))
  | .ok ps => (none, s.storeParts die ps)

/-! ### A core's global accesses -/

/-- A request of a core. -/
def Core.req (k : Core) (id : Nat) : Option GReq := k.reqs.find? (fun r => r.id == id)

/-- A request that has been performed: it leaves core order, and its translations are let go (R174). -/
def Core.retire (k : Core) (r : GReq) : Core :=
  { k.dropEntries r.tlb with reqs := k.reqs.filter (fun x => x.id != r.id) }

def State.retire (s : State) (c : Nat) (r : GReq) : State := s.modCore c (fun k => k.retire r)

/-- Corrected errors counted for a core's task (R58). -/
def State.countCorrected (s : State) (c n : Nat) : State :=
  match (s.core c).task with
  | some t => s.modTask t (fun k => { k with ncorr := Nat.min 255 (k.ncorr + n) })
  | none => s

/-- The bytes of the pieces of a load, or the first that is not to be had. -/
def State.fetchPieces (s : State) (die : Nat) : List Piece → Except (Nat × Fetched) (List Byte) × State
  | [] => (.ok [], s)
  | p :: rest =>
    match s.fetchTarget die p.target p.len with
    | (.data bs, s) =>
      match s.fetchPieces die rest with
      | (.ok more, s) => (.ok (bs ++ more), s)
      | (.error e, s) => (.error e, s)
    | (f, s) => (.error (p.va, f), s)

/-- Bytes stored over pieces, and the address of the first that another package refused. -/
def State.storePieces (s : State) (die : Nat) : List Piece → List Byte → Option Nat × State
  | [], _ => (none, s)
  | p :: rest, bs =>
    match s.storeTarget die p.target (bs.take p.len) with
    | (ok, s) =>
      match s.storePieces die rest (bs.drop p.len) with
      | (bad, s) => (if ok then bad else some p.va, s)

/-- Whether a core takes a fault of its own at this tide (R407): an operation of it that performs does, or a word of its
group, before its state is looked at, does. A word that traps as it acts comes too late: the landing stops its issue
(log 22). -/
def State.faultsAnyway (s : State) (c : Nat) : Bool :=
  (s.conflict c s.tide).performAll.faultsNow s c ||
    ((s.core c).issuing s.tide && (s.groupFault c ((s.core c).group s.tide)).isSome)

/-- Whether an error of a landing waits for the resume, since a fault governs (R407): one that has stopped the gang,
or one of the core's own at this tide. A handler's own access does not wait for the stop that its handler serves. -/
def State.errorWaits (s : State) (c : Nat) (r : GReq) : Bool :=
  let k := s.core c
  (match (s.taskOf c).bind Task.stop with
    | none => false
    | some st => st.kind.frames && !st.pending s.tide && !(k.mode == .handler && decide (st.allFrozen ≤ r.issued)))
  || s.faultsAnyway c

/-- Whether what lands on a core is discarded, since its gang has stopped for good or has ended (R383, R405). -/
def State.discards (s : State) (c : Nat) : Bool :=
  (s.core c).mode == .frozen && (s.taskOf c).any (fun k => k.state == .stopping || k.verdict.isSome)

/-- FINFO of an uncorrectable line at a landing (R406): the address of the line. -/
def landingInfo (va : Nat) : W64 := w64 (4 * 2 ^ 60 + va % 2 ^ 57 / 64 * 64)

/-- The engine fault of a landing that has no data (R42, R383). -/
def State.landingFault (s : State) (c eng va : Nat) : Fetched → State
  | .bad off => s.raise c 4 false 0x19 (landingInfo (va + off)) s.tide
  | _ => s.raise c eng false 0x0E (transInfo 7 3 va) s.tide

/-- The rows of a gathered tile. -/
def Tile.rowsLoaded (t : Tile) (rb : Nat) (bs : List Byte) : Tile :=
  t.patched ((chunksOf rb (bs.length / rb) bs).zipIdx.map (fun r => (r.2 * rb, r.1))) []

/-- The destination of a load takes its data (R383). -/
def State.landData (s : State) (c : Nat) (op : GOp) (bs : List Byte) : State :=
  let tile (t : Nat) (f : Tile → Tile) : State :=
    (s.writeTile c t f).modCore c (fun k => k.landed (.tile t))
  match op with
  | .load r _ sx => s.modCore c (fun k => (k.setReg r (loaded sx bs)).landed (.reg r))
  | .loadTile t elems _ => tile t (fun x => x.imagePart elems 0 bs)
  | .loadRow t off len => tile t (fun x => x.patched [(off, bs.take len)] [])
  | .loadRows t rb => tile t (fun x => x.rowsLoaded rb bs)
  | _ => s

/-- The destination of a load that has failed is no longer awaited. -/
def Core.landNothing (k : Core) : GOp → Core
  | .load r _ _ => k.landed (.reg r)
  | .loadTile t _ _ => k.landed (.tile t)
  | .loadRow t _ _ => k.landed (.tile t)
  | .loadRows t _ => k.landed (.tile t)
  | .loadValue v len => (k.landed (.value v)).unholdValue v (blocksOf len)
  | .landing v len => (k.landed (.value v)).unholdValue v (blocksOf len)
  | .rmw r _ _ => k.landed (.reg r)
  | _ => k

/-- The landing of a load; a value's data lands line by line (R157), and with the last of it the load. -/
def State.landLoad (s : State) (c : Nat) (r : GReq) : State :=
  if s.discards c then s.modCore c (fun k => (k.retire r).landNothing r.op)
  else
  match s.fetchPieces (dieOf c) r.pieces with
  | (.ok bs, s') =>
    let n := (r.pieces.map (fun p => s.targetCorrected p.target p.len)).sum
    let s := s'.countCorrected c n
    match r.op with
    | .loadValue v len => s.modCore c (fun k =>
        { k.bring r.id s.tide (k.blockAddr v) bs with
          reqs := k.reqs.map (fun (x : GReq) =>
            if x.id = r.id then { x with op := .landing v len, pieces := [] } else x) })
    | op => (s.retire c r).landData c op bs
  | (.error (va, f), s') =>
    if s.errorWaits c r then s
    else ((s'.retire c r).modCore c (fun k => k.landNothing r.op)).landingFault c r.eng va f

/-- An attempt that found no unit: the gate tries again (R416). -/
def State.attemptFailed (s : State) (c : Nat) (op : Rmw) : State :=
  if op.attempt then s.attemptDone c op { ok := false, reg := op == .wlk true } else s

/-- Whether a request is a release at device or system scope. -/
def GReq.wide (r : GReq) : Bool := releases (BitVec.ofNat 2 r.order) && 3 ≤ r.scope

/-- A release at device or system scope raises what the acknowledgements that it waited for have brought
(R207, R249). -/
def State.wideRelease (s : State) (c : Nat) (r : GReq) : State :=
  if r.wide then s.releaseErrors c r.id s.tide else s

/-- Whether a release that would raise such an error waits, since a fault governs (R407, log 22). -/
def State.releaseWaits (s : State) (c : Nat) (r : GReq) : Bool :=
  r.wide && ((s.core c).badAck r.id).isSome && s.errorWaits c r

/-- The landing of an atomic (R410), a lock's attempt or a fill. -/
def State.landAtomic (s : State) (c : Nat) (r : GReq) (d : Nat) (op : Rmw) (ptr : W64) : State :=
  match r.pieces with
  | [] => s.retire c r
  | p :: _ =>
    match s.atomicTarget (dieOf c) p.target op with
    | (.error f, s') =>
      if s.discards c then s'.modCore c (fun k => (k.retire r).landNothing r.op)
      else if s.errorWaits c r then s
      else
        (((s'.retire c r).modCore c (fun k => k.landNothing r.op)).attemptFailed c op).landingFault c
          r.eng p.va f
    | (.ok x, s') =>
      if s.discards c then s'.modCore c (fun k => (k.retire r).landNothing r.op)
      else if (!x.ok && !op.attempt && s.errorWaits c r) || s.releaseWaits c r then s
      else
        let s := ((s'.retire c r).modCore c (fun k => (k.setReg d x.value).landed (.reg d))).wideRelease c r
        if op.attempt then s.attemptDone c op x
        else if x.ok then s
        else
          match op with
          | .fill _ => s.raise c 6 false 0x14 ptr s.tide
          | _ => s.raise c 6 false 0x0F (protInfo 1 6 p.va) s.tide

/-- GLOBAL_LOAD_LANDING (R383): a load or an atomic reaches its home and its data lands. -/
def execGlobalLoadLanding (core req : Nat) (s : State) : Host.Outcome State Fault Refusal :=
  .next (match (s.core core).req req with
    | none => s
    | some r =>
      match r.op with
      | .rmw d op ptr => s.landAtomic core r d op ptr
      | .landing .. => (s.retire core r).modCore core (fun k => k.landNothing r.op)
      | _ => s.landLoad core r)

/-- The bytes that a store writes: those it took at issue, or those of its value (R392). -/
def Core.storeBytesOf (k : Core) : GOp → List Byte
  | .store bs => bs
  | .storeValue v off len =>
    let bs := k.valueBytes v
    ((bs ++ List.replicate (off + len - bs.length) 0).drop off).take len
  | _ => []

/-- GLOBAL_WRITE_ACK (R174): a store reaches its home and is acknowledged. -/
def execGlobalWriteAck (core req : Nat) (s : State) : Host.Outcome State Fault Refusal :=
  .next (match (s.core core).req req with
    | none => s
    | some r =>
      match s.storePieces (dieOf core) r.pieces ((s.core core).storeBytesOf r.op) with
      | (bad, s') =>
        let lost := bad.filter (fun _ => !s.discards core)
        if (lost.isSome && s.errorWaits core r) || s.releaseWaits core r then s
        else
          let s := (s'.retire core r).modCore core (fun k =>
            match r.op with
            | .storeValue v _ len => k.unholdValue v (blocksOf len)
            | _ => k)
          let s := s.wideRelease core r
          match lost with
          | some va => s.landingFault core r.eng va .refused
          | none => s)

/-! ### Acknowledgements and replies -/

/-- A near-memory request acknowledged (R207): its translations and its page are let go; an error stays
until the release or RFENCE that waits for it. -/
def Core.ackNear (k : Core) (id : Nat) (error : Option (Byte × W64)) (ackedAt : Nat) : Core :=
  let held := (k.near.filter (fun r => r.id == id)).flatMap NearReq.tlb
  { k.dropEntries held with
    ackedAt := ackedAt
    near := (k.near.map (fun r => if r.id = id then
        { r with acked := true, error := error, tlb := [], pages := [] } else r)).filter
      (fun r => !(r.id == id && error.isNone)) }

/-- An acknowledgement with nothing more to bring. -/
def State.dropAck (s : State) (id : Nat) : State := { s with acks := s.acks.filter (fun a => a.id != id) }

/-- NEAR_MEMORY_ACK (R207) of the acknowledgement that the subject names; its status, if it brings one,
lands in a step of its own. -/
def execNearMemoryAck (s : State) : Host.Outcome State Fault Refusal :=
  .next (match s.acks.find? (fun a => a.id == s.subject) with
    | none => s
    | some a =>
      let live := (s.core a.core).task == some a.task
      let s := s.modCore a.core (fun k =>
        if live then k.ackNear a.msg a.error s.tide else k.ackNear a.msg none k.ackedAt)
      let s := if a.lost then { s with ibsnd := saturate s.ibsnd }.harbourEvent 0x07 else s
      if a.status.isSome then { s with acks := s.acks.map (fun x =>
        if x.id = a.id then { x with near := false } else x) }
      else s.dropAck a.id)

/-- A status word lands in its register, unless its gang has stopped or ended (R383, R405). -/
def State.landStatus (s : State) (c : Nat) (task : Nat) (r : Nat) (v : W64) : State :=
  if (s.core c).task = some task then
    s.modCore c (fun k => (if s.discards c then k else k.setReg r v).landed (.reg r))
  else s

/-! ### Signals -/

/-- A partition's error counter (R61). -/
def State.countError (s : State) (p : Nat) : State := s.modPart p (fun k => { k with perr := saturate k.perr })

/-- A signal at its core (R421): it advances the flag, or is dropped and counted. -/
def State.signalArrives (s : State) (c f part : Nat) (rel : Option Cover) : Bool × State :=
  let k := s.core c
  if k.task.isSome && k.part == part && k.mode != .idle then
    let s := s.modCore c (fun k => { k with flags := vset k.flags f (k.flag f + 1) })
    (true, match rel with
      | some v => s.addCover v
      | none => s)
  else (false, s.countError part)

/-- FLAG_SIGNAL_ARRIVAL (R421) of the message, or of the request, that the subject names. -/
def execFlagSignalArrival (s : State) : Host.Outcome State Fault Refusal :=
  .next (match s.flits.find? (fun f => f.id == s.subject) with
    | some f =>
      let s := { s with flits := s.flits.filter (fun x => x.id != f.id) }
      match f.kind with
      | .signal c n part rel => (s.signalArrives c n part rel).2
      | _ => s
    | none =>
      match (List.range 256).find? (fun c => ((s.core c).req s.subject).isSome) with
      | none => s
      | some c =>
        match (s.core c).req s.subject with
        | some r =>
          if s.releaseWaits c r then s else
          let s := s.retire c r
          let s := s.wideRelease c r
          match r.op with
          | .signal d n => (s.signalArrives d n (s.core c).part none).2
          | _ => s
        | none => s)

end Sys2Proof.Machine
end

