-- ==== Sys2Proof/Machine/Ordering.lean ====
section
/-!
DEFINITION. Core order among untimed accesses (spec/09): which requests of a core may reach their homes
at a tide (R197, R198, R206, R207, R210), and the fences that are complete (R412, R428). Order is kept
by holding an access back until what it follows has been performed (log 5).
-/

namespace Sys2Proof.Machine

/-! ### Accesses -/

def GOp.isLoad : GOp → Bool
  | .load .. => true
  | .loadTile .. => true
  | .loadRow .. => true
  | .loadRows .. => true
  | .loadValue .. => true
  | .landing .. => true
  | _ => false

def GOp.isAtomic : GOp → Bool
  | .rmw .. => true
  | _ => false

/-- A write of R206, an atomic among them; a spawn and a signal count as stores. -/
def GOp.isStore : GOp → Bool
  | .store .. => true
  | .storeValue .. => true
  | .rmw .. => true
  | .signal .. => true
  | .spawn .. => true
  | _ => false

def GOp.isAcquired : GOp → Bool
  | .acquired .. => true
  | _ => false

/-- An access, as opposed to a fence or the mark of an acquire. -/
def GReq.isAccess (r : GReq) : Bool := r.op.isLoad || r.op.isStore

/-- An order with acquire, with release. -/
def GReq.acq (r : GReq) : Bool := r.order % 2 == 1
def GReq.rel (r : GReq) : Bool := 2 ≤ r.order

/-- The byte ranges of two targets overlap. -/
def Target.meets (a : Target) (n : Nat) (b : Target) (m : Nat) : Bool :=
  match a, b with
  | .device x, .device y => overlap x n y m
  | .cipher x _, .cipher y _ => overlap x n y m
  | .device x, .cipher y _ => overlap x n y m
  | .cipher x _, .device y => overlap x n y m
  | .host x, .host y => overlap x n y m
  | .pod _ p x, .pod _ q y => p == q && overlap x n y m
  | .transport p x, .transport q y => p == q && overlap x n y m
  | _, _ => false

def GReq.sameLocation (x y : GReq) : Bool :=
  x.pieces.any (fun p => y.pieces.any (fun q => p.target.meets p.len q.target q.len))

/-- Whether a request that stands earlier in core order, and has not been performed, holds another back
(R198, and the rows of R206). -/
def GReq.blocks (x y : GReq) : Bool :=
  x.op.isAcquired || x.op == .rfence || x.sameLocation y
    || (x.acq && (x.op.isLoad || x.op.isAtomic))
    || (x.op == .fence && (x.acq || y.op.isStore))
    || (x.isAccess && y.op.isStore && y.rel)

/-- Whether an operation of a core in flight is a timed access of cohort memory: a read, any access. -/
def Perform.cohortRead (p : Perform) : Bool :=
  match p.op with
  | .load _ (.cohort _) _ _ => true
  | .tileLoad _ _ _ (.cohort _) _ => true
  | .rowLoad _ _ (.cohort _) _ => true
  | .lineRead .. => false
  | .rmw _ (.cohort _) _ _ _ => true
  | _ => false

def Perform.cohortAccess (p : Perform) : Bool :=
  p.cohortRead || (match p.op with
    | .store (.cohort _) _ => true
    | _ => false)

/-- Timed accesses of cohort memory that issued before a word (R161). -/
def Core.cohortBefore (k : Core) (ord : Nat) (f : Perform → Bool) : Bool :=
  (k.inflight ++ k.captured).any (fun p => f p && decide (p.ord < ord))

/-- Whether a near-memory request of a core changes what a piece of an access reaches (R198). -/
def State.nearMeets (s : State) (n : NearReq) (p : Piece) : Bool :=
  (match n.target with
    | some t => t.meets 4 p.target p.len
    | none => false)
  || (n.pages.filterMap s.dpaOfPage).any (fun a => (Target.device a).meets 32768 p.target p.len)

/-- Whether an earlier near-memory request of a core to the place of a request has yet to be applied (R198). -/
def State.nearHolds (s : State) (c : Nat) (y : GReq) : Bool :=
  (s.core c).near.any (fun n => !n.acked && decide (n.id < y.id) && y.pieces.any (s.nearMeets n))

/-- Whether an earlier request of its core to its place holds a near-memory request back (R198). -/
def State.placeHolds (s : State) (c id : Nat) : Bool :=
  (s.core c).near.any (fun n => n.id == id &&
    (s.core c).reqs.any (fun x => decide (x.id < id) && x.pieces.any (s.nearMeets n)))

/-- Requests of a core that stand before another. -/
def Core.earlier (k : Core) (id : Nat) : List GReq := k.reqs.filter (fun r => decide (r.id < id))

/-- Whether core order lets a request go to its home. -/
def Core.mayGo (k : Core) (y : GReq) : Bool :=
  y.isAccess && !y.parked && !(k.earlier y.id).any (fun x => x.blocks y)
    && !(y.op.isStore && y.rel && (k.cohortBefore y.ord Perform.cohortAccess
      || (3 ≤ y.scope && k.nearBefore y.id)))
    && (match y.op with
      | .spawn _ _ record => !record.isEmpty && !(k.earlier y.id).any (fun x => x.op.isStore)
      | _ => true)

/-- Whether a request may reach its home at a tide. -/
def Core.mayPerform (k : Core) (tide : Nat) (y : GReq) : Bool := k.mayGo y && y.ready ≤ tide

/-- The station that a request of a core leaves through (R36). -/
def State.stationOf (s : State) (c : Nat) (y : GReq) : Option Nat :=
  y.pieces.findSome? (fun p => match p.target with
    | .pod _ i _ => s.station (dieOf c) i
    | _ => none)

/-- Whether a target lies in a bank that scans (R219). -/
def State.targetBusy (s : State) (t : Target) (n : Nat) : Bool :=
  match t.dpa with
  | some a => !s.scans.isEmpty && (linesOf a n).any (fun l => s.scanningIn (s.bankOf (64 * l)))
  | none => false

/-- The bytes of a write that waits. -/
def LateWrite.size (w : LateWrite) : Nat := (w.op.map Rmw.size).getD w.bytes.length

/-- Whether a write that has left its core has to wait: for a bank that scans, or behind one that waits (R219). -/
def State.mustWait (s : State) (t : Target) (n : Nat) : Bool :=
  s.targetBusy t n || s.late.any (fun w => w.target.meets w.size t n)

/-- A write of a task that has left its core, or its scheduler: made at once, or once its bank does not scan (R219). -/
def State.writeLate (s : State) (die part task : Nat) (t : Target) (bs : List Byte) : State :=
  if s.mustWait t bs.length then
    let (n, s) := s.number
    let w := { id := n, since := s.tide, die := die, part := part, task := task, target := t, bytes := bs }
    { s with late := s.late ++ [w] }
  else (s.storeTarget die t bs).2

/-- An atomic operation of a core that has left it, whose result nothing takes. -/
def State.atomicLate (s : State) (die part task : Nat) (t : Target) (op : Rmw) : State :=
  if s.mustWait t op.size then
    let (n, s) := s.number
    let w := { id := n, since := s.tide, die := die, part := part, task := task, target := t, op := some op }
    { s with late := s.late ++ [w] }
  else (s.atomicTarget die t op).2

/-- A write that has waited for its bank is made. -/
def State.writeTurn (s : State) (id : Nat) : State :=
  match s.late.find? (fun w => w.id == id) with
  | none => s
  | some w =>
    let s := { s with late := s.late.filter (fun x => x.id != id) }
    match w.op with
    | some op => (s.atomicTarget w.die w.target op).2
    | none => (s.storeTarget w.die w.target w.bytes).2

/-- Bytes of a task stored over pieces that have left their core. -/
def State.writePieces (s : State) (die part task : Nat) : List Piece → List Byte → State
  | [], _ => s
  | p :: rest, bs => (s.writeLate die part task p.target (bs.take p.len)).writePieces die part task rest (bs.drop p.len)

/-- The device addresses of the table entries that a walk reads (R167). -/
def State.walkEntries (s : State) (p va : Nat) : Nat → Nat → Nat → List Nat
  | 0, _, _ => []
  | fuel + 1, level, table =>
    let index := if level = 4 then va / 2 ^ 16 % 32 else va / 2 ^ (48 - 9 * level) % 512
    match s.dpaOf p (table + 8 * index) with
    | none => []
    | some addr =>
      let e := w64 (natOfBytes (s.device.read addr 8))
      addr :: (if level = 4 || (level = 3 && wbit e 57) || !wbit e 63 then []
        else s.walkEntries p va fuel (level + 1) (wbits e 35 0 * 256))

/-- Whether a walk reads an entry in a bank that scans (R219). -/
def State.tablesBusy (s : State) (p va : Nat) : Bool :=
  !s.scans.isEmpty && (s.walkEntries p va 5 0 0).any (fun a => s.targetBusy (.device a) 8)

/-- Whether an access of hardware to a virtual address waits for a bank that scans: one of the tables, or one of
the bytes (R219). -/
def State.virtualBusy (s : State) (p die : Nat) (a : Access) (va n : Nat) : Bool :=
  !s.scans.isEmpty && (runsOf va n).any (fun r => s.tablesBusy p r.1 || (match s.walk p die a r.1 with
    | .ok l => s.targetBusy (l.target r.1) r.2
    | .error _ => false))

/-- A landing that has all its data in the heap (R157, R389). -/
def Core.allArrived (k : Core) (r : GReq) : Bool :=
  match r.op with
  | .landing .. => !k.awaitsData r.id
  | _ => true

/-- The step in which a request is performed. -/
def GReq.event (c : Nat) (r : GReq) : Act :=
  match r.op with
  | .store .. => .event (.globalWriteAck c r.id) 0
  | .storeValue .. => .event (.globalWriteAck c r.id) 0
  | .signal .. => .event .flagSignalArrival r.id
  | .spawn .. => .event (.statusReplyLanding c r.id) 0
  | _ => .event (.globalLoadLanding c r.id) 0

/-! ### Fences -/

/-- Accesses of any core that have not been performed, and acquires that still wait. -/
def State.outstandingIds (s : State) : List Nat :=
  s.cores.toList.flatMap (fun k => (k.reqs.filter (fun r => r.isAccess || r.op.isAcquired)).map GReq.id)

/-- Whether a fence, an RFENCE or the mark of an acquire is complete. -/
def Core.complete (k : Core) (out : List Nat) (y : GReq) : Bool :=
  let xs := k.earlier y.id
  match y.op with
  | .acquired armed ids => armed && ids.all (fun i => !out.contains i)
  | .rfence => !k.nearBefore y.id
  | .fence =>
    if y.rel then
      !xs.any (fun x => x.isAccess || x.op.isAcquired) && !k.cohortBefore y.ord Perform.cohortAccess
        && !(3 ≤ y.scope && k.nearBefore y.id)
    else
      !xs.any (fun x => x.op.isLoad || x.op.isAtomic || x.op.isAcquired)
        && !k.cohortBefore y.ord Perform.cohortRead
  | _ => false

/-- A fence that waits for acknowledgements. -/
def GReq.awaitsNear (r : GReq) : Bool := r.op == .rfence || (r.op == .fence && r.wide)

/-- The fences of a core that are complete go; errors of acknowledgements that they waited for are
raised at this tide (R207, R428), but where a fault governs (log 22). -/
def State.clearFences (s : State) (out : List Nat) (c : Nat) : State :=
  let k := s.core c
  let done := k.reqs.filter (fun r => k.complete out r
    && !(r.awaitsNear && (k.badAck r.id).isSome && s.errorWaits c r))
  if done.isEmpty then s
  else
    let s := s.modCore c (fun k => { k with
      fencedAt := if done.any (fun r => r.op == .rfence) then k.ackedAt else k.fencedAt
      reqs := k.reqs.filter (fun r => !(done.any (fun d => d.id == r.id))) })
    (done.filter GReq.awaitsNear).foldl (fun s r => s.releaseErrors c r.id s.tide) s

/-- Releases whose accesses have all been performed hold nothing back any more. -/
def State.pruneCovers (s : State) (out : List Nat) : State :=
  { s with covers := s.covers.filter (fun v => v.ids.any (fun i => out.contains i)) }

/-! ### Messages to base dies, commands, scans (rows 3, 5, 9 and 17 of R206) -/

/-- Whether the earlier requests of a core hold back a near-memory request. -/
def Core.holdsNear (k : Core) (id : Nat) : Bool :=
  (k.earlier id).any (fun x => x.op.isAcquired || x.op == .rfence || x.op == .fence
    || (x.acq && (x.op.isLoad || x.op.isAtomic)))

/-- Whether they hold back a command, a chain, a query, a group request or an optimiser step. -/
def Core.holdsService (k : Core) (id : Nat) : Bool :=
  (k.earlier id).any (fun x => x.op.isAcquired || x.op == .rfence
    || (x.op == .fence && (x.acq || (x.rel && 3 ≤ x.scope)))
    || (x.acq && (x.op.isLoad || x.op.isAtomic)))

/-- Whether a request of a contributor, which keeps its core's order at a base die (R241). The opening of a group is
none: a request issued before its reply may come to the die before it (R448, row 16 of R206). -/
def MsgKind.breakwater : MsgKind → Bool
  | .bws .. => true
  | .bwc .. => true
  | .bwa .. => true
  | _ => false

/-- The target of a reduction. -/
def MsgKind.target? : MsgKind → Option Nat
  | .red _ dpa _ => some dpa
  | _ => none

/-- Whether an earlier message of one core keeps a later one waiting (R198, R241, row 13 of R206). Records from
other packages keep the order of their write, and of their arrival at one base die (R43). -/
def Msg.before (m n : Msg) : Bool :=
  m.core == n.core && decide (m.id < n.id) && !m.accepted
    && (m.remote == n.remote || (m.core.isNone && m.stack == n.stack))
    && ((m.core.isNone && m.kind.target?.isSome) || (m.kind.breakwater && n.kind.breakwater && m.stack == n.stack)
      || m.kind.pages.any n.kind.pages.contains
      || (m.kind.target?.isSome && (m.kind.target? == n.kind.target? || n.remote.isSome)))

/-- A service request that is no near-memory request (R196). -/
def MsgKind.service : MsgKind → Bool
  | .groupOpen .. => true
  | .opts .. => true
  | _ => false

/-- Whether a message's content is complete: a token image is read at issue + 3 (R395). -/
def MsgKind.whole : MsgKind → Bool
  | .kvAppend _ _ _ _ token _ => !token.isEmpty
  | _ => true

/-- The banks that a message is for. -/
def State.msgBanks (s : State) (m : Msg) : List Nat :=
  match m.kind with
  | .red _ dpa _ => if m.core.isSome && m.remote.isSome then [] else [s.bankOf dpa]
  | k => k.pages.map (· / 128)

/-- Whether a message is for a bank that scans (R219, R236). -/
def State.msgBusy (s : State) (m : Msg) : Bool := (s.msgBanks m).any s.scanningIn

/-- Whether nothing but its way, and a bank that scans, keeps a message from being accepted. -/
def State.mayLeave (s : State) (m : Msg) : Bool :=
  !m.accepted && m.kind.whole && !s.msgs.any (fun x => x.before m)
    && (match m.core with
      | none => true
      | some c =>
        if m.kind.service then !(s.core c).holdsService m.id
        else !(s.core c).holdsNear m.id && !s.placeHolds c m.id)

/-- Whether a message may be accepted at a tide. -/
def State.mayAccept (s : State) (m : Msg) : Bool := m.ready ≤ s.tide && s.mayLeave m && !s.msgBusy m

/-! ### The order of a station (R36) -/

/-- The station that a reduction record of a core leaves through. -/
def State.recordStation (s : State) (m : Msg) : Option Nat :=
  match m.core, m.remote with
  | some c, some home => s.station (dieOf c) home
  | _, _ => none

/-- The accesses of a die's cores that have come to a station and not left, by their numbers; what its own core holds
back has not come to it. -/
def State.stationRequests (s : State) (die st : Nat) : List Nat :=
  (List.range 64).flatMap (fun i =>
    let k := s.core (die * 64 + i)
    (k.reqs.filter (fun x => s.stationOf (die * 64 + i) x == some st && k.mayGo x)).map GReq.id)

/-- The reduction records that have come to a station: those on their way to it, and those that it has gathered but
for a core and a home. -/
def State.stationRecords (s : State) (st : Nat) (but : Option (Nat × Nat)) : List Nat :=
  (s.msgs.filter (fun m => s.recordStation m == some st && s.mayLeave m)).map Msg.id ++
  (s.gathers.filter (fun g => some (g.core, g.home) != but && s.station (dieOf g.core) g.home == some st)).flatMap
    Gather.ids

/-- Whether traffic of the same die, issued earlier, still has to leave through a request's station, which keeps the
order of issue (R36). -/
def State.stationAhead (s : State) (c : Nat) (y : GReq) : Bool :=
  match s.stationOf c y with
  | none => false
  | some st => (s.stationRequests (dieOf c) st ++ s.stationRecords st none).any (fun n => decide (n < y.id))

/-- Whether traffic of the die that was issued by a tide still has to leave through the station that a piece of a
command goes through: what a command moves is issued when the command comes to it (log 56). -/
def State.stationHeld (s : State) (die since : Nat) (p : Piece) : Bool :=
  match p.target with
  | .pod _ i _ =>
    match s.station die i with
    | none => false
    | some st =>
      let first (k : Core) (n : Nat) : Bool := k.reqs.any (fun r => r.id == n && decide (r.issued ≤ since))
        || k.near.any (fun r => r.id == n && decide (r.issued ≤ since))
      let ns := s.stationRequests die st ++ s.stationRecords st none
      (List.range 64).any (fun c => ns.any (first (s.core (die * 64 + c))))
  | _ => false

/-- The requests of a core that reach their homes, or whose data has landed, at this tide. -/
def State.performable (s : State) (c : Nat) : List GReq :=
  (s.core c).reqs.filter (fun r => (s.core c).allArrived r && (s.core c).mayPerform s.tide r && !s.nearHolds c r
    && !s.stationAhead c r && !r.pieces.any (fun p => s.targetBusy p.target p.len))

end Sys2Proof.Machine
end

