-- ==== Sys2Proof/Machine/Services.lean ====
section
/-!
DEFINITION. The services of the base dies: reductions (R221 to R223), key–value pages (R224 to R227,
R395 to R397), and page scans (R230 to R236).
-/

namespace Sys2Proof.Machine

/-! ### Messages and their answers -/

def State.msg (s : State) (id : Nat) : Option Msg := s.msgs.find? (fun m => m.id == id)

def State.dropMsg (s : State) (id : Nat) : State := { s with msgs := s.msgs.filter (fun m => m.id != id) }

/-- The answer to a message travels back to its core: the acknowledgement, and a status for its
register. -/
def State.answer (s : State) (m : Msg) (status : Option W64) (error : Option (Byte × W64)) (near : Bool) :
    State :=
  match m.core with
  | none => s
  | some c =>
    let (n, s) := s.number
    let (d, s) := s.later 1
    { s with acks := s.acks ++ [{
        id := n, core := c, task := m.task, due := d, msg := m.id, reg := m.reg, status := status
        error := error, near := near }] }

/-! ### Reductions -/

/-- The FP32 result of a value. -/
def f32 (x : WithFlags Num) : Nat := (roundWith tFP32 rne x).1

/-- The FP32 value of an element. -/
def v32 (b : Nat) : Num := valueOf tFP32 b

/-- The result of a reduction on a 32-bit target (R222). -/
def reduced (op x v : Nat) : Nat :=
  let i (b : Nat) : Int := signedOf 32 b
  let pick (first : Bool) : Nat :=
    if (v32 x).isNaN || (v32 v).isNaN then canonNaN tFP32 else if first then x else v
  match op with
  | 0 => f32 (sumExact [v32 x, v32 v])
  | 1 => (x + v) % 2 ^ 32
  | 2 => if i x ≤ i v then x else v
  | 3 => if i v ≤ i x then x else v
  | 4 => x &&& v
  | 5 => x ||| v
  | 6 => pick (!(v32 v).before (v32 x))
  | _ => pick (!(v32 x).before (v32 v))

/-- The answer to an inbox write (R41, R43) once its last record has been accepted. -/
def State.closeInbox (s : State) (n : Nat) : State :=
  if s.msgs.any (fun m => m.core.isNone && m.remote == some n) then s
  else
    let bad := s.inbox.any (fun x => x.1 == n && x.2)
    { s with
      inbox := s.inbox.filter (fun x => x.1 != n)
      replies := s.replies ++ [if bad then .ualinkError else .ualinkOk] }

/-- A record of an inbox write that has no effect: it is counted, and its write ends in an error. -/
def State.inboxFault (s : State) (n : Nat) : State :=
  { s with
    iberr := saturate s.iberr
    inbox := s.inbox.map (fun x => if x.1 = n then (n, true) else x) }

/-- A reduction that was not applied is reported to the partition that owns the line (R65, R223): a reduction-error
event in the ring of each of its functions, with the address and the task's TAG as far as the package knows them
(log 52). -/
def State.reductionError (s : State) (m : Msg) (dpa : Nat) : State :=
  let vid := (m.core.map (fun c => (s.core c).vid)).getD 0
  let addr := if m.core.isSome then m.info else Config.eventDetail s.fresh
  let tag := ((s.task? m.task).map (fun k => k.word 4)).getD (Config.eventDetail (s.fresh + 1))
  let s := { s with fresh := s.fresh + 2 }
  ((List.range 32).filter (fun p => (s.part p).owns dpa 4)).foldl (fun s p => s.eventAll p 0x07 vid addr tag) s

/-- RED_RECORD_APPLY (R222, R223) of the record that the subject names. -/
def execRedRecordApply (s : State) : Host.Outcome State Fault Refusal :=
  .next (match s.msg s.subject with
    | none => s
    | some m =>
      match m.kind with
      | .red op dpa v =>
        let bad := s.badLine (dpa / 64)
        let s := s.dropMsg m.id
        let new := bytesOfNat 4 (reduced op (natOfBytes (s.device.read dpa 4)) v.toNat)
        let s : State := if bad then s.uncorrectableRead (s.bankOf dpa)
          else { s with device := s.device.write dpa new }
        let s := if bad then s.reductionError m dpa else s
        match m.core, m.remote with
        | some _, _ => s.answer m none (if bad then some (0x19, m.info) else none) true
        | none, some n => (if bad then s.inboxFault n else s).closeInbox n
        | none, none => s
      | _ => s)

/-! ### Pages (R224 to R226) -/

/-- A page header (R225). -/
structure PageHeader where
  share : Nat
  tag : Nat
  vs : Nat
  ks : Nat
  fmt : Nat
  fill : Nat
  deriving DecidableEq, Repr

def PageHeader.pack (h : PageHeader) : BitVec 128 :=
  BitVec.ofNat 128 (h.share % 2 ^ 15 * 2 ^ 43 + h.tag % 2 ^ 16 * 2 ^ 27 + h.vs % 256 * 2 ^ 19
    + h.ks % 256 * 2 ^ 11 + h.fmt % 4 * 2 ^ 9 + h.fill % 512)

def unpackHeader (b : BitVec 128) : PageHeader :=
  let x := b.toNat
  ⟨bits x 57 43, bits x 42 27, bits x 26 19, bits x 18 11, bits x 10 9, bits x 8 0⟩

def State.header (s : State) (page : Nat) : PageHeader := unpackHeader (Sparse.get 0 s.headers page)

def State.setHeader (s : State) (page : Nat) (h : PageHeader) : State :=
  { s with headers := s.headers.set 0 page h.pack }

/-- The head dimension of a format, the bytes of its elements, of K and of a token, and its capacity
(R224). -/
def fmtDim (fmt : Nat) : Nat := if fmt % 2 = 1 then 64 else 128
def fmtElem (fmt : Nat) : Nat := if 2 ≤ fmt then 2 else 1
def fmtHalf (fmt : Nat) : Nat := fmtDim fmt * fmtElem fmt
def fmtToken (fmt : Nat) : Nat := 2 * fmtHalf fmt
def fmtCapacity (fmt : Nat) : Nat := 32768 / fmtToken fmt

/-- The largest magnitude of elements, NaN left out, infinities counted (R226). -/
def maxAbs (xs : List Num) : Num := maxMag (xs.filter (fun x => !x.isNaN))

/-- The smallest scale from `least` on under which `limit` × 2^(S − 127) reaches a magnitude, or 254. -/
def scaleFor (limit least : Nat) (x : Num) : Nat :=
  ((List.range 255).find? (fun t =>
    least ≤ t && !(Num.lt (.fin false limit ((t : Int) - 127) false) x))).getD 254

/-- The scale that a first token fixes. -/
def firstScale (fmt : Nat) (xs : List Num) : Nat :=
  if 2 ≤ fmt || (maxAbs xs).isZero then 127 else scaleFor 224 0 (maxAbs xs)

/-- Whether a later token fits a scale. -/
def fits (fmt scale : Nat) (xs : List Num) : Bool :=
  2 ≤ fmt || !(Num.lt (.fin false 448 ((scale : Int) - 127) false) (maxAbs xs))

/-- An element of a page scaled by a power of two, rounded to E4M3. -/
def scaledE4M3 (x : Num) (k : Int) : Byte :=
  BitVec.ofNat 8 (if x.isNaN then 0x7F
    else match x with
      | .inf neg => if neg then 0xFE else 0x7E
      | _ => (roundE4M3Clamped rne (x.scale k)).1)

/-- The stored bytes of the elements of a token's half (R226). -/
def storedHalf (fmt scale : Nat) (bs : List Byte) : List Byte :=
  if 2 ≤ fmt then bs.take (2 * fmtDim fmt)
  else ((wordsOf 2 (fmtDim fmt) bs).map (fun w => scaledE4M3 (valueOf tBF16 w) (127 - (scale : Int))))

/-- The elements of a half of a token image. -/
def halfValues (fmt : Nat) (bs : List Byte) : List Num :=
  (wordsOf 2 (fmtDim fmt) bs).map (valueOf tBF16)

/-- Bytes of a page. -/
def State.pageBase (s : State) (page : Nat) : Nat := (s.dpaOfPage page).getD 0

def State.readPage (s : State) (page off n : Nat) : List Byte := s.device.read (s.pageBase page + off) n

/-- Bytes of a page written by a page operation, which leaves a line that cannot be read as it is (DESIGN CHOICE,
log 65). -/
def State.writePage (s : State) (page off : Nat) (bs : List Byte) : State :=
  { s with device := s.device.write (s.pageBase page + off) bs }

/-- The K or V elements of the tokens present, moved to another scale (R227). -/
def State.rescaled (s : State) (page : Nat) (h : PageHeader) (v : Bool) (scale : Nat) : State × PageHeader :=
  let old := if v then h.vs else h.ks
  let half := fmtHalf h.fmt
  let s := (List.range h.fill).foldl (fun s t =>
    let off := t * fmtToken h.fmt + if v then half else 0
    s.writePage page off ((s.readPage page off half).map (fun b =>
      scaledE4M3 (valueOf tE4M3 b.toNat) ((old : Int) - scale)))) s
  (s, if v then { h with vs := scale } else { h with ks := scale })

/-! ### Page operations (R227) -/

/-- What a page operation answers: status, detail, page. -/
structure PageReply where
  status : Nat
  detail : Nat
  page : Nat
  deriving DecidableEq, Repr

/-- The reply word (R397). -/
def State.replyWord (s : State) (r : PageReply) : W64 :=
  let h := s.header r.page
  w64 (r.status * 2 ^ 56 + r.detail * 2 ^ 52 + h.fill * 2 ^ 43 + h.tag * 2 ^ 24 + r.page)

/-- A token written at FILL, and FILL after it. -/
def State.appendToken (s : State) (page : Nat) (h : PageHeader) (token : List Byte) : State :=
  let off := h.fill * fmtToken h.fmt
  let k := storedHalf h.fmt h.ks (token.take 256)
  let v := storedHalf h.fmt h.vs (token.drop 256)
  (s.writePage page off (k ++ v)).setHeader page { h with fill := h.fill + 1 }

/-- Checks 1 and 2 of R227. -/
def State.pageRefusal (s : State) (page : Nat) (tag : Option W16) : Option Nat :=
  if (s.bank (page / 128)).offline then some 0x1
  else
    match tag with
    | some t => if (s.header page).tag = t.toNat then none else some 0x2
    | none => none

/-- Append with START. -/
def State.startPage (s : State) (page fmt : Nat) (h : PageHeader) (token : List Byte) : State :=
  let b := page / 128
  let s := s.setBank b { s.bank b with
    undefinedPages := (s.bank b).undefinedPages.filter (· != page % 128) }
  s.appendToken page { share := 1, tag := (h.tag + 1) % 2 ^ 16, fmt := fmt, fill := 0
                       ks := firstScale fmt (halfValues fmt (token.take 256))
                       vs := firstScale fmt (halfValues fmt (token.drop 256)) } token

/-- An append. -/
def State.append (s : State) (page : Nat) (tag : W16) (start : Bool) (fmt : Nat) (token : List Byte)
    (range : Bool) : PageReply × State :=
  let h := s.header page
  let kx := halfValues fmt (token.take 256)
  let vx := halfValues fmt (token.drop 256)
  match s.pageRefusal page (if start then none else some tag) with
  | some d => (⟨0x03, d, page⟩, s)
  | none =>
    if start && h.share ≤ 1 then (⟨0, 0, page⟩, s.startPage page fmt h token)
    else if 1 < h.share then (⟨0x03, 0xF, page⟩, s)
    else if h.share = 0 || h.fmt ≠ fmt then (⟨0x03, 0x3, page⟩, s)
    else if h.fill = fmtCapacity fmt then (⟨0x06, 0, page⟩, s)
    else
      let kok := fits fmt h.ks kx
      let vok := fits fmt h.vs vx
      if kok && vok then (⟨0, 0, page⟩, s.appendToken page h token)
      else if range then (⟨0x05, 0, page⟩, s)
      else
        let (s, h) := if kok then (s, h) else s.rescaled page h false (scaleFor 448 h.ks (maxAbs kx))
        let (s, h) := if vok then (s, h) else s.rescaled page h true (scaleFor 448 h.vs (maxAbs vx))
        (⟨0, 0, page⟩, s.appendToken page h token)

/-- A rescale by request. -/
def State.rescale (s : State) (page : Nat) (tag : W16) (v : Bool) (scale : Nat) : PageReply × State :=
  let h := s.header page
  match s.pageRefusal page (some tag) with
  | some d => (⟨0x03, d, page⟩, s)
  | none =>
    if h.share = 0 then (⟨0x03, 0x3, page⟩, s)
    else if 2 ≤ h.fmt || scale < (if v then h.vs else h.ks) then (⟨0x05, 0, page⟩, s)
    else
      let r := s.rescaled page h v scale
      (⟨0, 0, page⟩, r.1.setHeader page r.2)

/-- A page and its header copied to another; a line that cannot be read cannot be read there either. The copy is not
marked undefined as a page (DESIGN CHOICE, log 64). -/
def State.copyPage (s : State) (page dst : Nat) (h : PageHeader) : State :=
  let from_ := s.pageBase page / 64
  let dest := s.pageBase dst / 64
  let bad := (List.range 512).filter (fun i => s.poison.contains (from_ + i))
  let s := s.writePage dst 0 (s.readPage page 0 32768)
  { s with poison := s.poison.filter (fun l => l < dest || dest + 512 ≤ l) ++ bad.map (dest + ·) }.setHeader dst
    { h with share := 1, tag := ((s.header dst).tag + 1) % 2 ^ 16 }

/-- A fork. -/
def State.fork (s : State) (page : Nat) (tag : W16) (dst : Nat) : PageReply × State :=
  let h := s.header page
  match s.pageRefusal page (some tag) with
  | some d => (⟨0x03, d, page⟩, s)
  | none =>
    if h.share = 0 then (⟨0x03, 0x3, page⟩, s)
    else if h.share < 32767 then (⟨0, 0, page⟩, s.setHeader page { h with share := h.share + 1 })
    else if dst = 0 || dst / 2 ^ 21 ≠ page / 2 ^ 21 || (s.header dst).share ≠ 0 then (⟨0x03, 0x4, page⟩, s)
    else if (s.bank (dst / 128)).offline then (⟨0x03, 0x1, page⟩, s)
    else (⟨0, 0, dst⟩, s.copyPage page dst h)

/-- A release. -/
def State.release (s : State) (page : Nat) (tag : W16) : PageReply × State :=
  let h := s.header page
  match s.pageRefusal page (some tag) with
  | some d => (⟨0x03, d, page⟩, s)
  | none =>
    if h.share = 0 then (⟨0x03, 0x3, page⟩, s)
    else
      (⟨0, 0, page⟩, s.setHeader page (if h.share = 1 then
        { h with share := 0, fill := 0, tag := (h.tag + 1) % 2 ^ 16 } else { h with share := h.share - 1 }))

/-- A page operation applied, and its answer sent. -/
def State.pageStep (s : State) (f : MsgKind → State → Option (PageReply × State)) :
    Host.Outcome State Fault Refusal :=
  .next (match s.msg s.subject with
    | none => s
    | some m =>
      match f m.kind (s.dropMsg m.id) with
      | none => s
      | some (r, s) => s.answer m (if m.reg = 0 then none else some (s.replyWord r)) none true)

/-- KV_APPEND (R227) of the message that the subject names. -/
def execKvAppend (s : State) : Host.Outcome State Fault Refusal :=
  s.pageStep (fun k s =>
    match k with
    | .kvAppend page tag start fmt token range => some (s.append page tag start fmt token range)
    | _ => none)

/-- KV_RESCALE (R227). -/
def execKvRescale (s : State) : Host.Outcome State Fault Refusal :=
  s.pageStep (fun k s =>
    match k with
    | .kvRescale page tag v scale => some (s.rescale page tag v scale)
    | _ => none)

/-- KV_FORK (R227). -/
def execKvFork (s : State) : Host.Outcome State Fault Refusal :=
  s.pageStep (fun k s =>
    match k with
    | .kvFork page tag dst => some (s.fork page tag dst)
    | _ => none)

/-- KV_RELEASE (R227). -/
def execKvRelease (s : State) : Host.Outcome State Fault Refusal :=
  s.pageStep (fun k s =>
    match k with
    | .kvRelease page tag => some (s.release page tag)
    | _ => none)

/-! ### Page scans (R231 to R234) -/

def State.setScan (s : State) (y : PageScan) : State :=
  { s with scans := s.scans.map (fun x => if x.id = y.id then y else x) }

def State.dropScan (s : State) (id : Nat) : State := { s with scans := s.scans.filter (fun x => x.id != id) }

/-- The first token of a page that a scan counts, and their number (R232). -/
def PageScan.tokens (x : PageScan) (fill : Nat) : Nat × Nat :=
  let cap := fmtCapacity x.fmt
  let base := x.ordinal * cap
  let lo := Nat.max x.tfirst base
  let hi := Nat.min (x.tfirst + x.tcount) (base + fill)
  (lo - base, hi - lo)

/-- A running triple of a scan. -/
structure Triple where
  m : Nat := 0xFF800000
  l : Nat := 0
  acc : List Nat
  nan : Bool := false
  deriving DecidableEq, Repr

/-- FP32 operations, each rounded once. -/
def fadd (x y : Nat) : Nat := f32 (sumExact [v32 x, v32 y])
def fsub (x y : Nat) : Nat := f32 (sumExact [v32 x, (v32 y).neg])
def fmul (x y : Nat) : Nat := f32 (mulExact (v32 x) (v32 y))
def fexp2 (x : Nat) : Nat := f32 (pow2 (v32 x))
def fscale (x : Nat) (k : Int) : Nat := f32 ((v32 x).scale k, 0)

/-- A triple with one token more (R232). -/
def Triple.token (t : Triple) (q k v : List Num) (ks vs : Nat) : Triple :=
  if t.nan then t
  else
    let prods := (q.zip k).map (fun x => (mulExact x.1 x.2).1)
    let d := f32 (sumExact prods)
    let x := fscale d ((ks : Int) - 127)
    if (v32 x).isNaN then
      { m := canonNaN tFP32, l := canonNaN tFP32, acc := t.acc.map (fun _ => canonNaN tFP32), nan := true }
    else
      let up := (v32 t.m).lt (v32 x)
      let c := if up then fexp2 (fsub t.m x) else 0x3F800000
      let m := if up then x else t.m
      let p := fexp2 (fsub x m)
      { t with
        m := m
        l := fadd (fmul t.l c) p
        acc := (t.acc.zip v).map (fun a =>
          fadd (fmul a.1 c) (fscale (f32 (mulExact (v32 p) a.2)) ((vs : Int) - 127))) }

/-- The elements of a half of a stored token. -/
def State.tokenHalf (s : State) (page fmt t : Nat) (v : Bool) : List Num :=
  let bs := s.readPage page (t * fmtToken fmt + if v then fmtHalf fmt else 0) (fmtHalf fmt)
  if 2 ≤ fmt then (wordsOf 2 (fmtDim fmt) bs).map (valueOf tBF16)
  else bs.map (fun b => valueOf tE4M3 b.toNat)

/-- The triple of the counted tokens. -/
def State.scanTokens (s : State) (x : PageScan) (h : PageHeader) (first n : Nat) : Triple :=
  let dim := fmtDim x.fmt
  let q := (wordsOf 2 dim x.q).map (valueOf tBF16)
  (List.range n).foldl (fun t i =>
    t.token q (s.tokenHalf x.page x.fmt (first + i) false) (s.tokenHalf x.page x.fmt (first + i) true) h.ks
      h.vs) { acc := List.replicate dim 0 }

/-- A result record (R233). -/
def resultRecord (x : PageScan) (ncorr tokens : Nat) (t : Triple) : List Byte :=
  bytesOfWords [w64 ((if ncorr = 0 then 0 else 1) * 2 ^ 56 + Nat.min 255 ncorr * 2 ^ 40 + tokens * 2 ^ 31
      + x.page), w64 (t.l * 2 ^ 32 + t.m)] ++
    t.acc.flatMap (bytesOfNat 4) ++ List.replicate (512 - 4 * t.acc.length) 0

/-- The corrected reads of a scan (R235): 0 for its header, and for each corrected line its place among the lines of the
scan, from 1 on. -/
def State.scanFixed (s : State) (x : PageScan) (base n : Nat) : List Nat :=
  (if (s.bank (x.page / 128)).fixedHeaders then [0] else []) ++
    ((linesOf base (n * fmtToken x.fmt)).filter (fun l => s.corrected.contains l && !s.badLine l)).map (fun l =>
      l - base / 64 + 1)

/-- What a scan comes to: its record, the lines that it reads, and which of them were corrected. -/
structure ScanRun where
  record : List Byte
  lines : Nat := 0
  fixed : List Nat := []
  deriving DecidableEq, Repr

/-- The scan of a page, and the state after its reads (R232, R233, R235). TAG and FMT are looked at before an
undefined page is answered as uncorrectable (DESIGN CHOICE, log 64). -/
def State.scanPage (s : State) (x : PageScan) : ScanRun × State :=
  let b := s.bank (x.page / 128)
  let h := s.header x.page
  let (first, n) := x.tokens h.fill
  let base := s.pageBase x.page + first * fmtToken x.fmt
  let headed := if b.fixedHeaders then 1 else 0
  if b.offline then ({ record := emptyRecord 0x03 0x01 0 0 x.page }, s)
  else if b.badRows.contains headerRow then
    ({ record := emptyRecord 0x02 0 0 0 x.page }, s.uncorrectableRead (x.page / 128))
  else if h.tag ≠ x.tag.toNat then ({ record := emptyRecord 0x03 0x02 headed 0 x.page }, s)
  else if h.fmt ≠ x.fmt then ({ record := emptyRecord 0x03 0x03 headed 0 x.page }, s)
  else if b.undefinedPages.contains (x.page % 128) then ({ record := emptyRecord 0x02 0 headed 0 x.page }, s)
  else
    let fixed := s.scanFixed x base n
    match s.badAt base (n * fmtToken x.fmt) with
    | some off =>
      let met := fixed.filter (fun i => decide (i ≤ off / 64))
      ({ record := emptyRecord 0x02 0 met.length (off / fmtToken x.fmt) x.page, lines := off / 64 + 1, fixed := met },
        s.uncorrectableRead (x.page / 128))
    | none => ({ record := resultRecord x fixed.length n (s.scanTokens x h first n), lines := n * tokenLines x.fmt
                 fixed := fixed }, s)

/-- Whether a posted scan is queued at this tide (R208, R231). -/
def State.scanQueues (s : State) (x : PageScan) : Bool :=
  let k := s.core x.core
  x.state == .posted && x.due ≤ s.tide && !k.holdsService x.query
    && !k.near.any (fun r => !r.acked && r.pages.contains x.page && decide (r.id < x.id))

/-- PAGE_SCAN_QUEUED (R231) of the scan that the subject names. -/
def execPageScanQueued (s : State) : Host.Outcome State Fault Refusal :=
  .next { s with scans := s.scans.map (fun x =>
    if x.id = s.subject then { x with state := .queued, due := s.tide } else x) }

/-- Scans under way in a slice of a channel (R219): sixteen banks. -/
def State.sliceScans (s : State) (slice : Nat) : Nat :=
  s.scans.countP (fun x => x.page / 2 ^ 11 == slice && (match x.state with
    | .scanning .. => true
    | _ => false))

/-- Whether a page operation or a reduction that reached the bank before a scan still waits there. -/
def State.bankAwaited (s : State) (x : PageScan) : Bool :=
  s.msgs.any (fun m => m.ready < x.due && s.mayAccept m && (s.msgBanks m).contains (x.page / 128))

/-- Whether a queued scan starts at this tide, in arrival order within its slice (R219, R231). -/
def State.scanStarts (s : State) (x : PageScan) : Bool :=
  x.state == .queued && !s.scanningIn (x.page / 128) && s.sliceScans (x.page / 2 ^ 11) < 8
    && !s.bankAwaited x
    && !s.scans.any (fun y => y.state == .queued && y.page / 2 ^ 11 == x.page / 2 ^ 11
        && (y.due < x.due || (y.due == x.due && decide (y.id < x.id))) && !s.scanningIn (y.page / 128))

/-- PAGE_SCAN_START (R232): the unit reads FILL and the header once, and scans. -/
def execPageScanStart (s : State) : Host.Outcome State Fault Refusal :=
  .next (match s.scans.find? (fun x => x.id == s.subject) with
    | none => s
    | some x =>
      let (r, t) := s.scanPage x
      let b := x.page / 128
      let t := t.setScan { x with state := .scanning r.lines r.fixed r.record, due := s.tide + scanTime r.lines }
      if t.agenda.any (fun d => d.ev == .bankRefresh b) then t
      else t.due (nextRefresh b s.tide) (.bankRefresh b) 0)

/-- The slot of a scan, if it still stands and the scan's gang still runs (R162, R233, R463). -/
def State.scanSlot (s : State) (x : PageScan) : Option W32 :=
  let k := s.core x.core
  if x.cancelled || k.task ≠ some x.task || (k.ring x.ring).gen ≠ x.gen then none else x.pos

/-- Whether the reservation of a scan's slot is still in flight, or captured by a stop (R135, R401). -/
def Core.reservingFor (k : Core) (query : Nat) : Bool :=
  (k.inflight ++ k.captured).any (fun p =>
    match p.op with
    | .ringReserve _ _ _ q => q == some query
    | _ => false)

/-- RESULT_RECORD_LANDING (R233): a scan that has ended sends its record, which is written line by line into its
slot (R157), once that is reserved, and published with its last line. -/
def execResultRecordLanding (s : State) : Host.Outcome State Fault Refusal :=
  .next (match s.scans.find? (fun x => x.id == s.subject) with
    | none => s
    | some x =>
      match x.state, s.scanSlot x with
      | .scanning _ _ record, _ =>
        let (d, s) := s.later 1
        s.setScan { x with state := .writing record, due := d }
      | .writing record, some p =>
        (s.setScan { x with state := .landing }).modCore x.core (fun k =>
          k.bring x.id s.tide ((k.ring x.ring).slotAddr p) record)
      | .writing _, none =>
        if !x.cancelled && x.pos.isNone && (s.core x.core).reservingFor x.query then
          s.setScan { x with due := s.tide + 1 }
        else s.dropScan x.id
      | .landing, some p =>
        (s.dropScan x.id).modCore x.core (fun k => k.setRing x.ring ((k.ring x.ring).publish p))
      | .landing, none => (s.dropScan x.id).modCore x.core (fun k => k.dropData x.id)
      | _, _ => s)

/-- The scans whose bank or whose record is done at this tide. -/
def State.scansDue (s : State) : List Nat :=
  (s.scans.filter (fun x => x.due ≤ s.tide && (match x.state with
    | .scanning .. => true
    | .writing _ => true
    | .landing => (s.scanSlot x).isNone || !(s.core x.core).awaitsData x.id
    | _ => false))).map PageScan.id

/-- Scans of a gang that ends or is pre-empted (R118, R233, R463): those that wait go, and the records of
those under way will be dropped. -/
def State.cancelScans (s : State) (task : Nat) : State :=
  let waits (x : PageScan) : Bool := x.task == task && (x.state == .posted || x.state == .queued)
  let cut (x : PageScan) : PageScan := if x.task = task then { x with cancelled := true } else x
  { s with scans := (s.scans.filter (fun x => !waits x)).map cut }

end Sys2Proof.Machine
end

