-- ==== Sys2Proof/Machine/Breakwater.lean ====
section
/-!
DEFINITION. The breakwater merge and the optimiser step in the base dies (R237 to R256).
-/

namespace Sys2Proof.Machine

/-! ### Correctly rounded quotients and roots -/

/-- A quotient to 80 bits and a rest. -/
def divExact (x y : Num) : WithFlags Num :=
  match x, y with
  | .nan, _ => (.nan, 0)
  | _, .nan => (.nan, 0)
  | .inf _, .inf _ => (.nan, flagInvalid)
  | .inf a, .fin b _ _ _ => (.inf (a != b), 0)
  | .fin a _ _ _, .inf b => (.fin (a != b) 0 0 false, 0)
  | .fin a m e _, .fin b n f _ =>
    if n = 0 then if m = 0 then (.nan, flagInvalid) else (.inf (a != b), 0)
    else
      let k := bitLen n + 80
      (.fin (a != b) (m * 2 ^ k / n) (e - f - k) (m * 2 ^ k % n != 0), 0)

/-- A square root to 80 bits and a rest. -/
def sqrtExact (x : Num) : WithFlags Num :=
  match x with
  | .nan => (.nan, 0)
  | .inf s => if s then (.nan, flagInvalid) else (.inf false, 0)
  | .fin s m e _ =>
    if m = 0 then (.fin s 0 0 false, 0)
    else if s then (.nan, flagInvalid)
    else
      let odd := e % 2 ≠ 0
      let m' := if odd then 2 * m else m
      let h : Int := (if odd then e - 1 else e) / 2
      let v := m' * 2 ^ 160
      (.fin false (isqrt v) (h - 80) (isqrt v * isqrt v != v), 0)

def fdiv (x y : Nat) : Nat := f32 (divExact (v32 x) (v32 y))
def fsqrt (x : Nat) : Nat := f32 (sqrtExact (v32 x))
def ffma (x y z : Nat) : Nat := f32 (fmaExact (v32 x) (v32 y) (v32 z))

/-! ### Groups -/

/-- The fields of a descriptor (R238). -/
def Group.w (g : Group) (i : Nat) : W64 := g.desc.getD i 0
def Group.limit (g : Group) : Nat := wbits (g.w 0) 63 32
def Group.gid (g : Group) : Nat := wbits (g.w 0) 31 20
def Group.ncont (g : Group) : Nat := wbits (g.w 0) 19 16
def Group.tiles (g : Group) : Nat := wbits (g.w 0) 15 8
def Group.elements (g : Group) : Nat := 2048 * (g.tiles + 1)

/-- The group of a partition and a GID at a base die. -/
def State.groupAt (s : State) (part stack gid : Nat) : Option Group :=
  s.groups.find? (fun g => g.part == part && g.stack == stack && g.gid == gid)

def State.group (s : State) (id : Nat) : Option Group := s.groups.find? (fun g => g.id == id)

def State.setGroup (s : State) (y : Group) : State :=
  { s with groups := s.groups.map (fun g => if g.id = y.id then y else g) }

/-- Bytes of staging that a group reserves (R239). -/
def stagingBytes (desc : List W64) : Nat :=
  (wbits (desc.getD 0 0) 19 16 + 1) * (wbits (desc.getD 0 0) 15 8 + 1) * 8192

/-- Whether a base die has a slot and staging for a group (R237). -/
def State.groupRoom (s : State) (stack : Nat) (desc : List W64) : Bool :=
  let gs := s.groups.filter (fun g => g.stack == stack)
  gs.length < 64 && decide ((gs.map (fun g => stagingBytes g.desc)).sum + stagingBytes desc ≤ 2 ^ 25)

/-- The status word of BWO (R403). -/
def bwoWord (code stack : Nat) : W64 := w64 (code + stack / 2 * 256)

/-- A request to a breakwater unit has ended, and lets its translations go (R174). -/
def State.endService (s : State) (core : Option Nat) (request : Nat) : State :=
  match core with
  | some c => s.modCore c (fun k => k.endService request)
  | none => s

/-- GROUP_OPEN (R239) of the request that the subject names: a request for a group that applies or
completes is held. -/
def execGroupOpen (s : State) : Host.Outcome State Fault Refusal :=
  .next (match s.msg s.subject with
    | none => s
    | some m =>
      match m.kind with
      | .groupOpen desc dst compl _ =>
        let reply (s : State) (code : Nat) : State :=
          if m.reg = 0 then s else s.answer m (some (bwoWord code m.stack)) none false
        let refuse (s : State) (code : Nat) : State := (reply s code).endService m.core m.id
        match s.groupAt m.part m.stack (wbits (desc.getD 0 0) 31 20) with
        | some g =>
          if g.state ≠ .open_ then
            { s with msgs := s.msgs.map (fun x => if x.id = m.id then { x with accepted := true } else x) }
          else refuse (s.dropMsg m.id) (if g.desc = desc then 0x00 else 0x03)
        | none =>
          let s := s.dropMsg m.id
          if s.groupRoom m.stack desc then
            let g : Group := {
              id := s.fresh, part := m.part, stack := m.stack, desc := desc, dst := dst, compl := compl
              conts := List.replicate (wbits (desc.getD 0 0) 19 16 + 1) {}, last := s.tide
              core := m.core.getD 0, task := m.task, request := m.id, vf := m.vf }
            reply { s with fresh := s.fresh + 1, groups := s.groups ++ [g] } 0x00
          else refuse s 0x06
      | _ => s)

/-! ### Requests of contributors (R240 to R242) -/

def Group.cont (g : Group) (c : Nat) : Contributor := g.conts.getD c {}

def Group.setCont (g : Group) (c : Nat) (x : Contributor) : Group := { g with conts := g.conts.set c x }

/-- Whether everything that a group waits for is settled, and whether it applies (R244). -/
def Group.settled (g : Group) : Bool :=
  g.conts.all (fun x => x.state == .committed || x.state == .failed)
def Group.applies (g : Group) : Bool :=
  g.viol = 0 && g.conts.all (fun x => x.state == .committed && !x.range && !x.uncorr)

/-- A group that is settled leaves Open. -/
def State.settle (s : State) (id : Nat) : State :=
  match s.group id with
  | none => s
  | some g =>
    if g.state ≠ .open_ || !g.settled then s
    else
      let (d, s) := s.later 1
      if g.applies then (s.setGroup { g with state := .applying }).due d .phaseTwo id
      else (s.setGroup { g with state := .completing }).due d .groupCompletion id

/-- A violation (R242). -/
def Group.violate (g : Group) (c : Nat) : Group :=
  { g.setCont c { g.cont c with state := .failed } with viol := g.viol ||| 2 ^ c }

/-- FINFO of 0x18 at an acknowledgement (R249). -/
def bwInfo (kind cont gid : Nat) : W64 := w64 (kind * 2 ^ 61 + cont * 2 ^ 56 + gid * 256)

/-- A request of a contributor accepted: discarded with an error, a violation, or its effect. -/
def State.contributorStep (s : State) (m : Msg) (gid c tile : Nat) (f : Group → Contributor → Group) :
    State :=
  let s := s.dropMsg m.id
  match s.groupAt m.part m.stack gid with
  | none => s.answer m none (some (0x18, bwInfo 1 c gid)) true
  | some g =>
    if g.state ≠ .open_ then s.answer m none (some (0x18, bwInfo 2 c gid)) true
    else
      let s := s.answer m none none true
      let g := { g with last := s.tide }
      if g.ncont < c || g.tiles < tile then (s.setGroup (g.violate c)).settle g.id
      else
        let h := f g (g.cont c)
        let s := s.setGroup h
        if (h.cont c).state = .measuring && (g.cont c).state ≠ .measuring then
          let (d, s) := s.later 1
          s.due d (.phaseOne g.id c) 0
        else s.settle g.id

/-- A tile added to a contributor's staging (R240). -/
def Contributor.add (x : Contributor) (tile : Nat) (data : List W32) : Contributor :=
  let old := x.stage.read 0 (2048 * tile) 2048
  { x with stage := x.stage.write 0 (2048 * tile) ((old.zip data).map (fun e =>
      BitVec.ofNat 32 (fadd e.1.toNat e.2.toNat))) }

/-- A staging request of a contributor (R242). -/
def Group.stageOf (g : Group) (c tile : Nat) (data : List W32) (run : W64) (x : Contributor) : Group :=
  match x.state with
  | .empty => g.setCont c { x.add tile data with state := .staging, run := some run }
  | .staging => if x.run = some run then g.setCont c (x.add tile data) else g.violate c
  | .measuring => g.violate c
  | .committed => g.violate c
  | .failed => g

/-- A commit request of a contributor (R242). -/
def Group.commitOf (g : Group) (c : Nat) (run : W64) (x : Contributor) : Group :=
  match x.state with
  | .empty => g.setCont c { x with state := .measuring, run := some run }
  | .staging => if x.run = some run then g.setCont c { x with state := .measuring } else g.violate c
  | .measuring => g.violate c
  | .committed => g.violate c
  | .failed => g

/-- A request to begin again (R242). -/
def Group.undoOf (g : Group) (c : Nat) (x : Contributor) : Group :=
  match x.state with
  | .empty => g
  | .staging => g.setCont c {}
  | .measuring => g.setCont c { x with undo := true }
  | .committed => g.setCont c {}
  | .failed => g

/-- BWS_ACCEPT (R240, R242) of the request that the subject names. -/
def execBwsAccept (s : State) : Host.Outcome State Fault Refusal :=
  .next (match s.msg s.subject with
    | none => s
    | some m =>
      match m.kind with
      | .bws gid c tile data run => s.contributorStep m gid c tile (fun g x => g.stageOf c tile data run x)
      | _ => s)

/-- BWC_ACCEPT (R242). -/
def execBwcAccept (s : State) : Host.Outcome State Fault Refusal :=
  .next (match s.msg s.subject with
    | none => s
    | some m =>
      match m.kind with
      | .bwc gid c run => s.contributorStep m gid c 0 (fun g x => g.commitOf c run x)
      | _ => s)

/-- BWA_ACCEPT (R242). -/
def execBwaAccept (s : State) : Host.Outcome State Fault Refusal :=
  .next (match s.msg s.subject with
    | none => s
    | some m =>
      match m.kind with
      | .bwa gid c _ => s.contributorStep m gid c 0 (fun g x => g.undoOf c x)
      | _ => s)

/-! ### Phase one (R243) -/

/-- One round of sums of neighbours. -/
def pairRound : List Nat → List Nat
  | a :: b :: rest => fadd a b :: pairRound rest
  | xs => xs

/-- The pairwise sum: each round halves the list. -/
def pairSum : Nat → List Nat → Nat
  | 0, xs => xs.headD 0
  | n + 1, xs => pairSum n (pairRound xs)

/-- The norm of staged elements. -/
def normOf (tiles : Nat) (xs : List W32) : Nat :=
  let sq := xs.map (fun x => fmul x.toNat x.toNat)
  fsqrt (pairSum 14 ((chunksOf 32 (64 * (tiles + 1)) sq).map (pairSum 5)))

/-- The scale of a norm under a limit, and whether it marks RANGE. -/
def sigmaOf (limit n : Nat) : Nat × Bool :=
  if (v32 n).isZero then (0x3F800000, false)
  else if (v32 n).isNaN || v32 n == .inf false then (canonNaN tFP32, true)
  else
    let q := fdiv limit n
    (if (v32 q).lt (v32 0x3F800000) then q else 0x3F800000, false)

/-- A contributor after phase one. -/
def Contributor.measure (x : Contributor) (limit tiles : Nat) : Contributor :=
  if x.undo then {}
  else if !x.bad.isEmpty then { x with state := .committed, measured := true, uncorr := true, sigma := 0 }
  else
    let n := normOf tiles (x.stage.read 0 0 (2048 * (tiles + 1)))
    let r := sigmaOf limit n
    { x with
      state := .committed, measured := true
      norm := BitVec.ofNat 32 n, sigma := BitVec.ofNat 32 r.1, range := r.2 }

/-- PHASE_ONE (R243). -/
def execPhaseOne (group c : Nat) (s : State) : Host.Outcome State Fault Refusal :=
  .next (match s.group group with
    | none => s
    | some g =>
      let x := g.cont c
      if g.state = .open_ && x.state = .measuring then
        (s.setGroup { g.setCont c (x.measure g.limit g.tiles) with
          ncorr := g.ncorr + x.fixed.length }).settle group
      else s)

/-! ### Phase two (R244) -/

/-- A line of the total with every contribution applied in ascending id. -/
def Group.applyLine (g : Group) (line : Nat) (old : List Nat) : List Nat :=
  g.conts.foldl (fun t x =>
    (t.zip (x.stage.read 0 (16 * line) 16)).map (fun e => ffma x.sigma.toNat e.2.toNat e.1)) old

/-- One line of phase two. -/
def State.phaseLine (s : State) (g : Group) (line : Nat) : State × Group :=
  let a := g.dst + 64 * line
  if s.badLine (a / 64) then
    (s.uncorrectableRead (s.bankOf a), { g with errlines := g.errlines + 1 })
  else if g.conts.any (fun x => x.bad.contains line) then (s, { g with errlines := g.errlines + 1 })
  else
    let n := s.correctedIn a 64 + g.conts.countP (fun x => x.fixed.contains line)
    let new := g.applyLine line (wordsOf 4 16 (s.device.read a 64))
    ({ s with device := s.device.write a (new.flatMap (bytesOfNat 4)) }, { g with ncorr := g.ncorr + n })

/-- Lines of phase two in ascending order, `n` at most, up to one whose bank scans (R219). -/
def State.phaseLines (s : State) (g : Group) : Nat → State × Group
  | 0 => (s, g)
  | n + 1 =>
    if g.elements / 16 ≤ g.line || s.scanningIn (s.bankOf (g.dst + 64 * g.line)) then (s, g)
    else
      let r := s.phaseLine g g.line
      r.1.phaseLines { r.2 with line := g.line + 1 } n

/-- PHASE_TWO (R244) of the group that the subject names: a free number of lines, until all are written. -/
def execPhaseTwo (s : State) : Host.Outcome State Fault Refusal :=
  .next (match s.group s.subject with
    | none => s
    | some g =>
      if g.state ≠ .applying then s
      else
        let (n, s) := s.number
        let (s, g) := s.phaseLines g (Config.linesMoved n + 1)
        let (d, s) := s.later 1
        if g.line < g.elements / 16 then (s.setGroup g).due d .phaseTwo g.id
        else (s.setGroup { g with applied := true, state := .completing }).due d .groupCompletion g.id)

/-! ### Completion (R245 to R248) -/

/-- The status of a contributor (R247). -/
def Group.cstat (g : Group) (x : Contributor) : Nat :=
  if g.aborted then 0x07
  else if x.state = .failed then 0x03
  else if x.range then 0x05
  else if x.uncorr then 0x02
  else if g.applied then if x.fixed.isEmpty then 0 else 1
  else if x.state = .committed then 0x07
  else 0x03

/-- The status of a group (R247). -/
def Group.status (g : Group) : Nat :=
  if g.aborted then 0x07
  else if g.viol ≠ 0 || g.expired then 0x03
  else if g.conts.any (fun x => x.range) then 0x05
  else if g.conts.any (fun x => x.uncorr) || g.errlines ≠ 0 then 0x02
  else if g.ncorr ≠ 0 then 0x01
  else 0x00

/-- CAUSE of a group's record (R246): a violation, else an expiry. Of a group with both, R251 says 0x1B and R246 0x18;
the model gives 0x18 (log 54). -/
def Group.cause (g : Group) : Nat :=
  if g.viol ≠ 0 then 0x18 else if g.expired then 0x1B else 0

/-- Contributors whose σ is below 1, whatever has become of them since phase one. -/
def Group.clipped (g : Group) : Nat :=
  (g.conts.zipIdx.map (fun x =>
    if x.1.measured && (v32 x.1.sigma.toNat).lt (v32 0x3F800000) then 2 ^ x.2 else 0)).sum

/-- A completion record (R246). -/
def Group.record (g : Group) (flagdrop : Bool) : List Byte :=
  let pad (n : Nat) (bs : List Byte) : List Byte := bs ++ List.replicate (n - bs.length) 0
  bytesOfWords
    [w64 (g.status * 2 ^ 56 + g.cause * 2 ^ 48 + Nat.min 255 g.ncorr * 2 ^ 32 + g.viol % 2 ^ 16 * 2 ^ 16
      + g.clipped),
     w64 (g.gid * 2 ^ 52 + g.ncont * 2 ^ 48 + g.tiles * 2 ^ 40 + (if flagdrop then 2 ^ 32 else 0)
      + Nat.min (2 ^ 32 - 1) g.errlines),
     w64 g.limit, 0] ++
  pad 32 (g.conts.map (fun x => BitVec.ofNat 8 (g.cstat x))) ++
  pad 64 (g.conts.flatMap (fun x => bytesOfNat 4 x.sigma.toNat)) ++
  pad 64 (g.conts.flatMap (fun x => bytesOfNat 4 x.norm.toNat))

/-- The key of LAST (R253). -/
def lastKey (stack part gid : Nat) : Nat := (stack * 32 + part) * 4096 + gid

/-- The core of a group's flag, if it runs a gang of the partition (R246). -/
def State.flagCore (s : State) (g : Group) : Option Nat :=
  (s.physical g.part (wbits (g.w 3) 15 8)).filter (fun c =>
    (s.core c).task.isSome && (s.core c).part == g.part)

/-- A group that is Free again (R245). -/
def State.freeGroup (s : State) (id : Nat) : State := { s with groups := s.groups.filter (fun x => x.id != id) }

/-- A group completes: its record and LAST, and its flag after the record (R248); it is Free once both are written
(R245). -/
def State.completeGroup (s : State) (g : Group) : State :=
  let target := if wbit (g.w 3) 63 then s.flagCore g else none
  let drop := wbit (g.w 3) 63 && target.isNone
  let s := (s.storeRecord (g.stack / 2) g.vf g.compl (g.record drop)).endService (some g.core) g.request
  let s : State := { s with
    lastStatus := s.lastStatus.set 0xFF (lastKey g.stack g.part g.gid) (BitVec.ofNat 8 g.status) }
  match target with
  | none => s.freeGroup g.id
  | some c =>
    let (d, s) := s.later 1
    ((s.setGroup { g with state := .completing, written := true }).flit d none []
      (.signal c (wbits (g.w 3) 4 0) g.part none)).due (d + 1) .groupCompletion g.id

/-- GROUP_COMPLETION (R245, R246) of the group that the subject names: its record, or its end. -/
def execGroupCompletion (s : State) : Host.Outcome State Fault Refusal :=
  .next (match s.group s.subject with
    | none => s
    | some g =>
      if g.state ≠ .completing then s
      else if g.written then s.freeGroup g.id
      else if s.targetBusy g.compl 192 then s.due (s.tide + 1) .groupCompletion g.id
      else s.completeGroup g)

/-! ### Expiry and reset (R251, R63) -/

/-- A partition's watchdog in tc (R61). -/
def Partition.watchdog (p : Partition) : Nat := (if p.wdog = 0 then 2 ^ 32 else p.wdog.toNat) * 2 ^ 16

/-- Whether a group is past its watchdog. -/
def State.groupLate (s : State) (g : Group) : Bool :=
  g.state == .open_ && decide (g.last + (s.part g.part).watchdog < s.tide)

/-- GROUP_EXPIRY (R251) of the group that the subject names. -/
def execGroupExpiry (s : State) : Host.Outcome State Fault Refusal :=
  .next (match s.group s.subject with
    | none => s
    | some g =>
      if s.groupLate g then
        let (d, s) := s.later 1
        (s.setGroup { g with state := .completing, expired := true }).due d .groupCompletion g.id
      else s)

/-- A partition reset ends its groups with ABORTED; nothing more of them is applied (R63 step 3). -/
def State.abortGroups (s : State) (p : Nat) : State :=
  (s.groups.filter (fun g => g.part == p && !g.written)).foldl (fun s g =>
    let s := s.cancel (fun d => d.ev == .groupCompletion && d.subject == g.id)
    if g.state = .completing then s.completeGroup g
    else s.completeGroup { g with aborted := true }) s

/-! ### The optimiser step (R252 to R255) -/

/-- The constants of a step. -/
def optWord (ws : List W64) (i : Nat) (high : Bool) : Nat :=
  if high then wbits (ws.getD i 0) 63 32 else wbits (ws.getD i 0) 31 0

/-- New W, G, M and V of one element (R254). -/
def optElement (ws : List W64) (w g m v : Nat) : Nat × Nat × Nat × Nat :=
  let c := optWord ws
  let m1 := ffma (c 5 true) m (fmul (c 5 false) g)
  let v1 := ffma (c 6 true) v (fmul (fmul (c 6 false) g) g)
  let mh := fmul m1 (c 7 true)
  let vh := fmul v1 (c 7 false)
  let u := fdiv mh (fadd (fsqrt vh) (c 8 false))
  let w1 := fsub w (fmul (c 8 true) (fadd u (fmul (c 9 true) w)))
  (w1, if wbit (ws.getD 0 0) 50 then 0 else g, m1, v1)

/-- One line of a step: the arrays at a byte offset, `n` elements; the state, the lines left unchanged and
the corrected reads. -/
def State.optLine (s : State) (ws : List W64) (as : List Nat) (off n : Nat) : State × Nat × Nat :=
  let at_ (i : Nat) : Nat := as.getD i 0 + off
  match [0, 1, 2, 3].find? (fun i => s.badLine (at_ i / 64)) with
  | some i => (s.uncorrectableRead (s.bankOf (at_ i)), 1, 0)
  | none =>
    let fixed := ([0, 1, 2, 3].map (fun i => s.correctedIn (at_ i) 64)).sum
    let read (i : Nat) : List Nat := wordsOf 4 n (s.device.read (at_ i) (4 * n))
    let new := ((read 0).zip ((read 1).zip ((read 2).zip (read 3)))).map (fun e =>
      optElement ws e.1 e.2.1 e.2.2.1 e.2.2.2)
    let put (s : State) (i : Nat) (xs : List Nat) : State :=
      { s with device := s.device.write (at_ i) (xs.flatMap (bytesOfNat 4)) }
    let s := put (put (put s 0 (new.map (fun e => e.1))) 2 (new.map (fun e => e.2.2.1))) 3
      (new.map (fun e => e.2.2.2))
    (if wbit (ws.getD 0 0) 50 then put s 1 (new.map (fun e => e.2.1)) else s, 0, fixed)

/-- The lines of a step. -/
def optCount (ws : List W64) : Nat := (wbits (ws.getD 0 0) 18 0 + 16) / 16

/-- Lines of a step in ascending order, `n` at most, up to one whose bank scans (R219). -/
def State.optLines (s : State) (ws : List W64) (as : List Nat) (r : OptRun) : Nat → State × OptRun
  | 0 => (s, r)
  | n + 1 =>
    if optCount ws ≤ r.line || as.any (fun a => s.scanningIn (s.bankOf (a + 64 * r.line))) then (s, r)
    else
      let x := s.optLine ws as (64 * r.line) (Nat.min 16 (wbits (ws.getD 0 0) 18 0 + 1 - 16 * r.line))
      x.1.optLines ws as { r with line := r.line + 1, bad := r.bad + x.2.1, fixed := r.fixed + x.2.2 } n

/-- The record of a step (R255). -/
def optRecord (status ncorr detail group : Nat) : List Byte :=
  bytesOfWords [w64 (status * 2 ^ 56 + Nat.min 255 ncorr * 2 ^ 32 + detail), w64 (group * 2 ^ 56), 0, 0]

/-- The group that a step finds Open, Applying or Completing, and waits for (R253). -/
def State.stepGroup (s : State) (m : Msg) (ws : List W64) : Option Nat :=
  if wbit (ws.getD 0 0) 51 then none
  else ((s.groupAt m.part m.stack (wbits (ws.getD 0 0) 63 52)).filter (fun g => !g.written)).map Group.id

/-- Whether the group that a step waits for has yet to complete. -/
def State.stepWaits (s : State) (m : Msg) : Bool :=
  s.groups.any (fun g => some g.id == m.group && !g.written)

/-- The status that a step acquires: that of the latest completion of its group, or 0xFF where it follows none. -/
def State.stepLast (s : State) (m : Msg) (ws : List W64) : Nat :=
  if wbit (ws.getD 0 0) 51 then 0xFF
  else (s.lastStatus.get 0xFF (lastKey m.stack m.part (wbits (ws.getD 0 0) 63 52))).toNat

def State.setMsg (s : State) (m : Msg) : State :=
  { s with msgs := s.msgs.map (fun x => if x.id = m.id then m else x) }

/-- A step ends with its record (R255), which waits for a bank that scans. -/
def State.endStep (s : State) (m : Msg) (compl : Target) (die : Nat) (record : List Byte) : State :=
  if s.targetBusy compl 32 then s.setMsg m
  else ((s.dropMsg m.id).storeRecord die m.vf compl record).endService m.core m.id

/-- OPTS_STEP (R254) of the request that the subject names: it is accepted, waits for its group, acquires its
completion, and runs a free number of lines at a time. -/
def execOptsStep (s : State) : Host.Outcome State Fault Refusal :=
  .next (match s.msg s.subject with
    | none => s
    | some m =>
      match m.kind with
      | .opts ws as compl die =>
        if !m.accepted && (s.stepGroup m ws).isSome then
          s.setMsg { m with accepted := true, group := s.stepGroup m ws }
        else
          let r := m.run.getD { last := s.stepLast m ws }
          if !wbit (ws.getD 0 0) 51 && 2 ≤ r.last then
            s.endStep { m with accepted := true, run := some r } compl die (optRecord 0x07 0 0 r.last)
          else
            let (n, s) := s.number
            let (s, r) := s.optLines ws as r (Config.linesMoved n + 1)
            let (d, s) := s.later 1
            let m := { m with accepted := true, ready := d, run := some r }
            if r.line < optCount ws then s.setMsg m
            else s.endStep { m with ready := s.tide + 1 } compl die
              (optRecord (if r.bad ≠ 0 then 0x02 else if r.fixed ≠ 0 then 0x01 else 0) r.fixed r.bad r.last)
      | _ => s)

/-- Requests that a base die holds and that may now go on (R239, R253). -/
def State.heldReady (s : State) (m : Msg) : Bool :=
  m.accepted && m.ready ≤ s.tide && (match m.kind with
    | .groupOpen desc _ _ _ => (s.groupAt m.part m.stack (wbits (desc.getD 0 0) 31 20)).isNone
    | .opts .. => !s.stepWaits m
    | _ => false)

end Sys2Proof.Machine
end

