-- ==== Sys2Proof/Machine/Stops.lean ====
section
/-!
DEFINITION. Stops of a gang: presence checks and slips (R133 to R136, R147), freezes (R137), handlers
and the resume (R142, R143), walks (R173), reloads of absent tiles (R146), and reclaims (R187, R188).
-/

namespace Sys2Proof.Machine

/-! ### Stopping cores -/

/-- Whether a request is a release that waits for acknowledgements (R207). -/
def Core.awaitsAcks (k : Core) (r : GReq) : Bool :=
  r.op.isStore && r.rel && 3 ≤ r.scope && k.nearBefore r.id

/-- The loads of a core that have not landed are dropped (R405). -/
def Core.dropLoads (k : Core) : Core :=
  (k.reqs.filter (fun r => r.op.isLoad)).foldl (fun k r => ((k.retire r).landNothing r.op).dropData r.id) k

/-- Whether a core's gang is being stopped for good: for a pre-emption, or as its partition or its function is reset. -/
def State.stopsForGood (s : State) (c : Nat) : Bool := (s.taskOf c).any (fun k => k.state == .stopping)

/-- A core stops issuing (R135 step 2, R137): what performs at the plane or later is captured, and a release that
waits for acknowledgements is put off until the resume (R212). A pre-emption stop drops the core's loads (R405). -/
def State.freezeCore (s : State) (c plane : Nat) (frames : Bool) : State :=
  s.modCore c (fun k =>
    let k := (if frames then k.framed else k).capture plane
    let k := if s.stopsForGood c then k.dropLoads else k
    { k with
      mode := .frozen, stopAt := some (Nat.min s.tide (k.stopAt.getD s.tide))
      reqs := k.reqs.map (fun r => { r with parked := r.parked || k.awaitsAcks r }) })

/-- Whether a core may still be stopped. -/
def Core.stoppable (k : Core) : Bool := k.mode != .frozen && k.mode != .idle

/-- The cores of a gang that stop at the end of this tide. -/
def State.stoppingCores (s : State) : List Nat :=
  (List.range 256).filter (fun c =>
    let k := s.core c
    k.stoppable && (match k.stopAt with
      | some x => decide (x ≤ s.tide + 1)
      | none => false))

/-- The cores whose own faults or failures stop them freeze. -/
def State.freezeStopping (s : State) : State :=
  s.stoppingCores.foldl (fun s c =>
    match (s.taskOf c).bind Task.stop with
    | some st => s.freezeCore c st.plane st.kind.frames
    | none => s) s

/-- FREEZE_ARRIVAL (R137): the freeze reaches another core of the gang. -/
def execFreezeArrival (core : Nat) (s : State) : Host.Outcome State Fault Refusal :=
  .next (match (s.taskOf core).bind Task.stop with
    | some st =>
      if (s.core core).stoppable && !st.pending s.tide then s.freezeCore core st.plane st.kind.frames
      else s
    | none => s)

/-! ### Misses and slips -/

/-- A miss announced for plane F (R135, R136, R147): the earliest plane governs, misses for one plane
join, one for the plane of a walk's stop joins it (R177), and another stop in force takes no request. -/
def State.requestMiss (s : State) (c f : Nat) (kind : StopKind) (missing : List Missing)
    (traps : List (Nat × Nat × W64)) : State :=
  match s.taskOf c, (s.core c).task with
  | some k, some t =>
    let fresh : Stop := { kind := kind, f := f, plane := f, allFrozen := f, missing := missing, core := c,
                          since := f, traps := traps }
    let start (s : State) : State :=
      let s := s.setTask t { k with stop := some fresh }
      if f ≤ s.tide then { s with now := .event (.slipPlane t) 0 :: s.now } else s.due f (.slipPlane t) 0
    match k.stop with
    | none => start s
    | some st =>
      if st.kind.walks && kind == .slip && st.plane == f && st.resume.isNone then
        s.setTask t { k with stop := some { st with
          missing := st.missing ++ missing.filter (fun m => !st.missing.contains m) } }
      else if !st.pending s.tide || st.plane < f then s
      else if f < st.plane then start (s.cancel (fun d => d.ev == .slipPlane t))
      else s.setTask t { k with stop := some { st with
        missing := st.missing ++ missing.filter (fun m => !st.missing.contains m)
        traps := st.traps ++ traps.filter (fun x => !(st.traps.any (fun y => y.1 == x.1))) } }
  | _, _ => s

/-- A miss of a core: a slip, or a trap with its engine and FINFO where SCHMISS is 1. -/
def State.miss (s : State) (c f e : Nat) (ms : List Missing) : State :=
  let k := s.core c
  if wbit k.hmode 1 then
    let i := ((ms.head?.map Missing.info).getD (3, 0))
    s.requestMiss c f .missTrap [] [(c, e, missInfo i.1 i.2 f k.tbase)]
  else s.requestMiss c f .slip ms []

/-- SLIP_PLANE (R135, R136): every core of the gang stops, and a trapped miss is recorded. -/
def execSlipPlane (task : Nat) (s : State) : Host.Outcome State Fault Refusal :=
  .next (match s.task? task with
    | none => s
    | some k =>
      match k.stop with
      | none => s
      | some st =>
        let s := st.traps.foldl (fun s x => s.modCore x.1 (fun c => { c with
          fcause := fcauseOf true true x.2.1 0x06, finfo := x.2.2 })) s
        k.cores.foldl (fun s c => s.freezeCore c st.plane st.kind.frames) s)

/-- Whether a missing operand is there by now; what performs at this tide counts (R147). -/
def State.present (s : State) : Missing → Bool
  | .slot c n p =>
    let r := (s.core c).publishing n s.tide
    !r.enabled || decide ((p - r.con).toNat < r.filled)
  | .room c n p =>
    let r := (s.core c).publishing n s.tide
    !r.enabled || decide ((p - r.rel).toNat < r.slots)
  | .word c e t => (((s.core c).queue e).upcoming t 200).any (fun x => decide (t ≤ x.2.2))
  | .dest c d => !(s.core c).isPending d
  | .tile c t => !((s.core c).tile t).a
  | .acks c upto => !(s.core c).nearBefore upto
  | .unissued _ => false
  | .hold c b => !(s.core c).heldRun b (((s.core c).block b).len + 1)
  | .buffer c => (s.core c).hasRoom && (s.core c).outstanding < 4096

/-- A stop for operands or for walks ends (R135, R173): the gang resumes H after the last has come. -/
def State.endMiss (s : State) (t : Nat) (k : Task) (st : Stop) : State :=
  let at_ := Nat.max (s.tide + k.h) (st.f + 1)
  (s.setTask t { k with stop := some { st with resume := some at_ } }).due at_ (.slipResume t) 0

/-- Whether a stop has all that it waits for. -/
def State.missOver (s : State) (k : Task) (st : Stop) : Bool :=
  st.resume.isNone && st.missing.all s.present && (match st.kind with
    | .slip => true
    | .walk _ => k.cores.all (fun c => (s.core c).walk.isNone)
    | _ => false)

/-- The stops of this tide that have all that they wait for. -/
def State.resolveMisses (s : State) : State :=
  s.tasks.foldl (fun s e =>
    match s.task? e.1 with
    | some k =>
      match k.stop with
      | some st => if s.missOver k st then s.endMiss e.1 k st else s
      | none => s
    | none => s) s

/-- A gate whose instant fell within a stop from tide `f` on: it opens at the resume (R147, R336). -/
def Gate.latch (g : Gate) (f tide : Nat) : Gate :=
  match g.cls, g.arrived with
  | .talignM m, some _ => { g with holds := g.holds || (tide - 1) / m.toNat != (f - 1) / m.toNat }
  | _, _ => g

/-- A gang goes on, shifted by W (R135, R143): FCAUSE.V clears. -/
def State.resumeGang (s : State) (t : Nat) (k : Task) (st : Stop) : State :=
  let w := s.tide - st.f
  let s := s.modCores k.cores (fun c =>
    let c := c.shift st.plane w
    { c with
      reqs := c.reqs.map (fun r => { r with parked := false })
      stream := { c.stream with gate := c.stream.gate.latch st.f s.tide }
      mode := if c.haltTide = 0 then .running else .halted
      fcause := setBits c.fcause 63 63 0
      checked := s.tide - 1 })
  s.setTask t { k with stop := none }

/-- SLIP_RESUME (R135). -/
def execSlipResume (task : Nat) (s : State) : Host.Outcome State Fault Refusal :=
  .next (match s.task? task with
    | none => s
    | some k =>
      match k.stop with
      | some st => if st.resume = some s.tide then s.resumeGang task k st else s
      | none => s)

/-- A handler that waited goes on, later by its wait (log 14). -/
def Core.goOn (k : Core) (tide w : Nat) : Core :=
  { k with
    tbase := k.tbase + w
    checked := tide - 1
    stream := { k.stream with
      wait := none
      queues := k.stream.queues.map (fun q =>
        { q with nxt := q.nxt + w, qentry := q.qentry.map (fun e => (e.1, e.2 + w)) }) } }

/-- A handler that waits for a walk or for room: H after it has come, the handler goes on (R173, R174). -/
def State.handlerWait (s : State) (c : Nat) : State :=
  let k := s.core c
  match k.stream.wait with
  | none => s
  | some w =>
    match w.resume with
    | some r => if r ≤ s.tide then s.modCore c (fun k => k.goOn s.tide (s.tide - w.f)) else s
    | none =>
      if k.walk.isSome || (w.room && !s.present (.buffer c)) then s
      else s.modCore c (fun k => { k with stream := { k.stream with
        wait := some { w with resume := some (Nat.max (s.tide + s.horizon c) (w.f + 1)) } } })

/-! ### Presence checks (R133) -/

/-- Whether the words that a queue holds may not be all that it will issue up to a tide. -/
def Core.short (k : Core) (e limit : Nat) : Bool :=
  let q := k.queue e
  k.stream.fetching && !q.arrived
    && (match q.words.getLast? with
      | some w => !isGate w.word
          && (isGuard w.word || ((q.upcoming limit 200).map (fun x => x.2.1)).getLast? == some w)
      | none => true)

/-- Whether a virtual core id names a core of a core's gang. -/
def State.inGang (s : State) (c v : Nat) : Bool :=
  match s.taskOf c, s.physical (s.core c).part v with
  | some k, some d => k.cores.contains d
  | _, _ => false

/-- What a core misses for the words that come into its window. -/
def State.missesOf (s : State) (c : Nat) : List (Nat × Nat × List Missing) :=
  let k := s.core c
  let h := s.horizon c
  (List.range 8).flatMap (fun e =>
    let ahead := if k.short e (s.tide + h) then
        (k.withRows (s.rowsOf c)).lookMore (s.krows c) e ((k.queue e).words.length + 2)
          (lookFuel (s.krows c))
      else k
    k.queueMissing ahead c h s.tide (s.inGang c) e)

/-- The earliest plane among misses. -/
def earliest (ms : List (Nat × Nat × List Missing)) : Option Nat :=
  ms.foldl (fun m x => match m with
    | none => some x.1
    | some t => some (Nat.min t x.1)) none

/-- The reload of an absent tile begins at the check that found it (R146): its lines are read as untimed data. -/
def State.startReload (s : State) : Missing → State
  | .tile c n =>
    if s.agenda.any (fun d => d.ev == .tileReloadComplete c n) then s
    else
      let (i, s) := s.number
      if ((s.core c).tile n).z then s.due (s.tide + 1) (.tileReloadComplete c n) i
      else
        let (d, s) := s.later 4
        (s.modCore c (fun k => (k.readLines i s.tide (k.saveData n) 8192).readLines i s.tide (k.saveSide n) 512)).due d
          (.tileReloadComplete c n) i
  | _ => s

/-- A handler that lacks an operand waits for it (log 14). -/
def Core.holdBack (k : Core) : Core :=
  { k with
    tbase := k.tbase + 1
    stream := { k.stream with queues := k.stream.queues.map (fun q =>
      { q with nxt := q.nxt + 1, qentry := q.qentry.map (fun e => (e.1, e.2 + 1)) }) } }

/-- PRESENCE_CHECK (R133 to R136): the operands of the words that issue within the slip horizon. -/
def execPresenceCheck (core : Nat) (s : State) : Host.Outcome State Fault Refusal :=
  let ms := s.missesOf core
  let k := s.core core
  let checked (s : State) : State := s.modCore core (fun k =>
    { k with checked := Nat.max k.checked (s.tide + s.horizon core) })
  .next (match earliest ms with
    | none => checked s
    | some f =>
      let now := ms.filter (fun x => x.1 == f)
      let e := (now.head?.map (fun x => x.2.1)).getD 0
      let missing := now.flatMap (fun x => x.2.2)
      if k.mode == .handler then
        if wbit k.hmode 1 then
          let i := ((missing.head?.map Missing.info).getD (3, 0))
          s.raise core e true 0x06 (missInfo i.1 i.2 f k.tbase) s.tide
        else (missing.foldl State.startReload s).modCore core Core.holdBack
      else (missing.foldl State.startReload (checked s)).miss core f e missing)

/-- TILE_RELOAD_COMPLETE (R146), once the lines that the subject names have been read (R157). -/
def execTileReloadComplete (core tile : Nat) (s : State) : Host.Outcome State Fault Refusal :=
  .next (
    if (s.core core).awaitsData s.subject then s.due (s.tide + 1) (.tileReloadComplete core tile) s.subject
    else s.modCore core (fun k => k.reloaded tile))

/-! ### Walks (R72, R173) -/

/-- TRANSLATION_WALK_DONE (R173), once no table lies in a bank that scans (R219): the entry is put into the buffer,
or the word takes the fault. Where a fault governs the stop by now, the walk comes to nothing, and the miss is repeated
after RETH (R177); a handler's own walk serves its handler. -/
def execTranslationWalkDone (core : Nat) (s : State) : Host.Outcome State Fault Refusal :=
  .next (match (s.core core).walk with
    | none => s
    | some (e, va, a, report) =>
      if s.tablesBusy (s.core core).part va then s.due (s.tide + 1) (.translationWalkDone core) 0 else
      let s := s.modCore core (fun k => { k with walk := none })
      if (s.core core).mode != .handler && ((s.taskOf core).bind Task.stop).any (fun st => st.kind.frames) then s
      else match s.walk (s.core core).part (dieOf core) a va with
      | .ok l => s.insertEntry core l
      | .error (.fault level reason) =>
        let reason := if report.isSome && reason = 0 then 5 else reason
        s.raise core e true 0x0E (transInfo level reason va) s.tide
      | .error w => (s.countTables (s.core core).part [va]).raise core e true w.cause (w.info e va) s.tide)

/-! ### Handlers (R142, R143, R145) -/

/-- A core's handler begins as a segment 16 tc after its start. Its configured tiles are held (R145);
where software reloads tiles, an absent one is the handler's to reload (R146, log 14). -/
def Core.enterHandler (k : Core) (tide : Nat) : Core :=
  let queues : Vector Queue 8 := Vector.replicate 8 { nxt := tide + 16 }
  { k with
    mode := .handler
    kbase := k.tbase
    tbase := tide + 16
    saved := some k.stream
    stream := { queues := queues, pc := wbits k.trapvec 13 0, fetching := true }
    tiles := k.tiles.map (fun t => if t.c && !(t.a && k.trest) then { t with held := true } else t)
    checked := tide
    walk := none
    stopAt := none }

/-- HANDLER_START (R142): the next core's handler begins; with no handler present the fault ends the
task. -/
def execHandlerStart (task : Nat) (s : State) : Host.Outcome State Fault Refusal :=
  .next (match s.task? task with
    | none => s
    | some k =>
      match k.stop with
      | none => s
      | some st =>
        match s.handlersLeft k st with
        | none => s
        | some c =>
          let s := s.setTask task { k with stop := some { st with handlers := st.handlers ++ [c] } }
          if wbit (s.core c).trapvec 31 then
            (s.cancel (fun d => d.ev == .translationWalkDone c)).modCore c (fun x => x.enterHandler s.tide)
          else s.fail c (wbits (s.core c).fcause 7 0) (BitVec.ofNat 32 (s.core c).vid))

/-- The gangs whose first handler begins at this tide: every core has stopped, and none has begun. -/
def State.handlersDue (s : State) : List Nat :=
  (s.tasks.filter (fun e =>
    e.2.verdict.isNone && (match e.2.stop with
      | some st => st.kind.frames && st.allFrozen ≤ s.tide && st.handlers.isEmpty
          && e.2.cores.all (fun c => !(s.core c).stoppable)
      | none => false))).map Prod.fst

/-- GANG_RESUME (R143): the resume tide that RETH named. -/
def execGangResume (task : Nat) (s : State) : Host.Outcome State Fault Refusal :=
  .next (match s.task? task with
    | none => s
    | some k =>
      match k.stop with
      | some st => if st.resume = some s.tide then s.resumeGang task k st else s
      | none => s)

/-! ### Reclaims (R187, R188) -/

/-- COOLING_RECLAIM (R187): a Cooling value becomes Free; a value that an untimed reader holds makes the
gang slip (R188). -/
def execCoolingReclaim (core block : Nat) (s : State) : Host.Outcome State Fault Refusal :=
  .next (if !(s.core core).heldRun block (((s.core core).block block).len + 1) then
    s.modCore core (fun k => k.reclaim block)
    else s.miss core s.tide 3 [.hold core block])

/-- The reclaims of a core that fall due: none that a stop shifts. -/
def State.reclaimsOf (s : State) (c : Nat) : List Nat :=
  let k := s.core c
  let plane := match (s.taskOf c).bind Task.stop with
    | some st => if k.stoppable && k.mode != .handler then 2 ^ 64 else st.plane
    | none => 2 ^ 64
  (k.dueReclaims s.tide).filter (fun b => (k.block b).recl < plane)

end Sys2Proof.Machine
end

