-- ==== Sys2Proof/Machine/Gates.lean ====
section
/-!
DEFINITION. Gates (R129 to R131): arrival, the attempts of locks and futures (R416, R426), opening, and
the commit of a checkpoint epilogue (R117, R333, R334).
-/

namespace Sys2Proof.Machine

/-! ### Attempts (R416, R426) -/

/-- The operation of an attempt. -/
def Gate.attemptOp (g : Gate) : Option (Rmw × LockAt × Nat × Nat) :=
  match g.cls with
  | .rlk u scope order => some (.rlk, u, scope, order)
  | .wlk u scope order => some (.wlk g.reg, u, scope, order)
  | .take _ u scope order => some (.take, u, scope, order)
  | _ => none

/-- An attempt on the unit of a core's gate: at cohort memory it performs 12 tc later, once what an RFENCE waits for
has been acknowledged (row 12 of R206), at global memory at its home. -/
def State.attempt (s : State) (c : Nat) : State :=
  let k := s.core c
  let g := k.kernelGate
  match g.attemptOp with
  | none => s
  | some (op, at_, scope, order) =>
    if g.arrived.isNone || g.busy || g.holds then s
    else
      let busy (s : State) : State := s.modCore c (fun k => k.setKernelGate { g with busy := true })
      match at_ with
      | .cohort a => if k.reqs.any (fun r => r.op == .rfence) then s.due (s.tide + 1) (.lockAttempt c) 0
        else (busy s).modCore c (fun k =>
          { k with inflight := k.inflight ++ [
            { at_ := s.tide + 12, eng := 6, ord := k.ord, exposed := false
              op := .rmw 0 (.cohort a) op 0 { acq := if order % 2 = 1 then some (scope, 0) else none } }] })
      | .global va target _ =>
        let (n, s) := (busy s).number
        let (d, s) := s.later 1
        s.modCore c (fun k => { k with reqs := k.reqs ++ [
          { id := n, issued := s.tide, eng := 6, ord := k.ord, op := .rmw 0 op 0
            pieces := [⟨va, target, op.size⟩], scope := scope, order := order, ready := d
            gate := true }] })

/-- LOCK_ATTEMPT (R416). -/
def execLockAttempt (core : Nat) (s : State) : Host.Outcome State Fault Refusal :=
  .next (s.attempt core)

/-- TAKE_READ (R426). -/
def execTakeRead (core : Nat) (s : State) : Host.Outcome State Fault Refusal :=
  .next (s.attempt core)

/-- The atomic that withdraws a WLK's registration (R418). -/
def State.withdraw (s : State) (c : Nat) : State :=
  let g := (s.core c).kernelGate
  match g.cls with
  | .wlk u _ _ =>
    if !g.reg then s
    else
      let s := s.modCore c (fun k => k.setKernelGate { g with reg := false })
      match u with
      | .cohort a =>
        match (Rmw.apply .withdraw (s.cohort.read a 8)).new with
        | some bs => s.storeBytes c (.cohort a) bs
        | none => s
      | .global _ target _ => (s.atomicTarget (dieOf c) target .withdraw).2
  | _ => s

/-! ### Arrival (R129) -/

/-- Whether a core runs its kernel or its handler: the gates of both open as R130 has it (R142, R295). -/
def Core.atWork (k : Core) : Bool := k.mode == .running || k.mode == .handler

/-- Whether exposed operations that an arrival waits for are in flight: a handler's gate waits for the handler's own,
as those of the kernel perform after the resume (R143). -/
def Core.exposing (k : Core) : Bool :=
  (k.inflight ++ k.captured).any (fun p => p.exposed && (p.handler || k.mode != .handler))

/-- Whether a core arrives at its gate: every queue has issued GATE and every exposed operation has
performed. -/
def Core.arrives (k : Core) : Bool :=
  k.atWork && k.stopAt.isNone && k.stream.gate.arrived.isNone
    && k.stream.queues.toList.all Queue.arrived && !k.exposing

/-- The gate of the stream that a core issues: the kernel's, or that of its handler. -/
def Core.setGate (k : Core) (g : Gate) : Core := { k with stream := { k.stream with gate := g } }

/-- Whether a core can issue nothing more in its segment, though a queue lacks its GATE (R295): each queue has
issued its GATE or holds no word. -/
def Core.stuck (k : Core) : Bool :=
  let qs := k.stream.queues.toList
  k.stopAt.isNone && k.stream.gate.arrived.isNone && qs.any Queue.arrived && !qs.all Queue.arrived
    && qs.all (fun q => q.arrived || q.words.isEmpty)

/-- A core at work waits at its gate from the tide at which it is stuck (R295, R131). -/
def Core.markWait (k : Core) (tide : Nat) : Core :=
  if !k.atWork then k
  else
    let g := k.stream.gate
    k.setGate { g with waits := if k.stuck then some (g.waits.getD tide) else none }

/-- The gang cores of a set. -/
def Task.inSet (k : Task) (set : Nat × Nat) : List Nat := (k.cores.drop set.1).take (set.2 + 1 - set.1)

/-- An arrival at a barrier (R419): a set that differs from a pending one which names the core is a
trap; otherwise the arrival is told to the other cores concerned. -/
def State.arriveBar (s : State) (c : Nat) (k : Task) (set : Nat × Nat) (scope order : Nat) : State :=
  let x := s.core c
  let clash := s.bars.any (fun b => k.cores.contains b.core && b.lo ≤ x.gidx && x.gidx ≤ b.hi
    && (b.lo, b.hi) != set)
  if clash then s.raise c 6 true 0x17 (w64 (x.stream.gate.word.getD 0 % 2 ^ 14)) (s.tide + 1)
  else
    let g := x.stream.gate
    let s := s.modCore c (fun k => k.setKernelGate { g with arrived := some s.tide })
    let s := { s with bars := s.bars ++ [
      { core := c, lo := set.1, hi := set.2, scope := scope, order := order, at_ := s.tide }] }
    ((k.inSet set).filter (fun d => d != c)).foldl (fun s d =>
      s.flit (s.tide + 8) x.task (dieLegs (dieOf c) (dieOf d)) (.barrier c d)) s

/-- GATE_ARRIVAL (R129); a handler has plain gates alone (R431). -/
def execGateArrival (core : Nat) (s : State) : Host.Outcome State Fault Refusal :=
  .next (match s.taskOf core with
    | none => s
    | some k =>
      let g := (s.core core).stream.gate
      let arrived := s.modCore core (fun k => k.setGate { g with arrived := some s.tide })
      if (s.core core).mode == .handler then arrived
      else
        match g.cls with
        | .bar (some set) scope order => s.arriveBar core k set scope order
        | _ => arrived.attempt core)

/-- BARRIER_ARRIVAL (R419) of the message that the subject names. -/
def execBarrierArrival (s : State) : Host.Outcome State Fault Refusal :=
  .next (match s.flits.find? (fun f => f.id == s.subject) with
    | none => s
    | some f =>
      let s := { s with flits := s.flits.filter (fun x => x.id != f.id) }
      match f.kind with
      | .barrier src dst => { s with bars := s.bars.map (fun b =>
          if b.core = src then { b with told := b.told ++ [dst] } else b) }
      | _ => s)

/-! ### The condition (R130) -/

/-- The cores that a core's gate concerns. -/
def State.concerned (s : State) (c : Nat) : List Nat :=
  match (s.core c).stream.gate.cls, s.taskOf c with
  | .bar (some set) _ _, some k => k.inSet set
  | _, _ => [c]

/-- Whether a core stands at a gate, at work, as a barrier's set asks. -/
def Core.atGate (k : Core) (cls : GateClass) : Bool :=
  k.atWork && k.stopAt.isNone && k.stream.gate.arrived.isSome
    && (match cls, k.stream.gate.cls with
      | .bar a _ _, .bar b _ _ => a == b
      | .bar .., _ => false
      | _, _ => true)

/-- Whether the writes of a core's epilogue are acknowledged (R334), and its near-memory requests where
its gate carries a release at device or system scope (R411). The gate of a handler waits for neither. -/
def Core.settled (k : Core) : Bool :=
  k.mode == .handler || !(k.reqs.any (fun r => k.epi.writes.contains r.id))
    && (match k.stream.gate.cls with
      | .bar _ scope order => !(3 ≤ scope && 2 ≤ order && k.nearPending)
      | _ => true)

/-- Whether the condition of a core's gate holds at this tide. -/
def State.gateHolds (s : State) (c : Nat) : Bool :=
  let k := s.core c
  let g := k.stream.gate
  match g.cls with
  | .plain => true
  | .bar _ _ _ => true
  | .waitf f target _ _ => reaches (k.flag f) target
  | .rcon _ n => (k.ring n).enabled && (k.ring n).filled != 0
  | .talign target => target.toNat ≤ s.tide
  | .talignM m => g.holds || s.tide % m.toNat == 0
  | .rlk .. => g.holds
  | .wlk .. => g.holds
  | .take .. => g.holds

/-- Whether a core's gate opens at this tide. -/
def State.opens (s : State) (c : Nat) : Bool :=
  (s.core c).atGate .plain && s.gateHolds c
    && (s.concerned c).all (fun d => (s.core d).atGate (s.core c).stream.gate.cls && (s.core d).settled)

/-! ### Commit (R117, R334) -/

/-- The first word of the segment that begins as the gate opens. -/
def Stream.nextSeg (st : Stream) : SegMark :=
  st.segs.head?.getD ⟨st.pc, st.loops.map (fun f => (f.addr, f.iter, f.trips))⟩

/-- The fetch state of a region (R333). -/
def Stream.fetchState (st : Stream) : List W64 :=
  let m := st.nextSeg
  let ls := m.loops.take 4
  [w64 (m.addr % 2 ^ 14 + ls.length * 2 ^ 16)] ++
  ls.map (fun l => w64 (l.1 % 2 ^ 14 + l.2.1 * 2 ^ 16 + (l.2.2 - 1) * 2 ^ 40)) ++
  List.replicate (7 - ls.length) 0

/-- The commit-time parts of a core's region (R333). -/
def Core.commitParts (k : Core) : List (Nat × List Byte) :=
  let r := regionOf k.gidx
  [(r + 0x40, k.rings.toList.flatMap (fun x => bytesOfWords [x.cfg, w64 x.rel.toNat])),
   (r + 0x140, k.chains.toList.flatMap (fun c =>
     bytesOfWords [if c.lnk then c.next else 0,
       w64 ((if c.run then 2 ^ 63 else 0) + c.rep % 2 ^ 16)])),
   (r + 0x1C0, bytesOfWords k.stream.fetchState)]

/-- Bytes of the checkpoint area written by hardware, once their banks do not scan (R219). -/
def State.writeArea (s : State) (t : Nat) (k : Task) (off : Nat) (bs : List Byte) : State :=
  match k.heldWrite (pageCuts (k.ckaddr + off) bs) with
  | .ok ps => ps.foldl (fun s x => s.writeLate k.owner k.part t x.1.target x.2) s
  | .error _ => s

/-- Words 0 and 2 of the restart header (R119). -/
def State.writeCounts (s : State) (t : Nat) (k : Task) : State :=
  (s.writeArea t k 0 (bytesOfWords [w64 (k.commits % 2 ^ 32 * 2 ^ 32 + k.preempts % 2 ^ 32)])).writeArea t k 16
    (bytesOfWords [w64 k.lastc])

/-- What stands against a core's commit (R334): the ring of 0x15. -/
def Core.uncommittable (k : Core) : Option Nat :=
  match (List.range 16).find? (fun n => (k.ring n).enabled && (k.ring n).rsv != (k.ring n).rel) with
  | some n => some n
  | none =>
    (k.cmds.find? (fun c => c.state != .posted)).map (fun c => cmdRing c.words)

/-- A checkpoint becomes the restart point of its gang. -/
def State.commit (s : State) (t : Nat) (k : Task) : State :=
  let s := k.cores.foldl (fun s c =>
    (s.core c).commitParts.foldl (fun s x => s.writeArea t k x.1 x.2) s) s
  let k := { k with commits := k.commits + 1, lastc := s.tide, shielded := false }
  (s.setTask t k).writeCounts t k

/-- The end of an epilogue at the opening of a gate: the commit, or what traps instead. -/
def State.closeEpilogue (s : State) (c : Nat) : State :=
  match s.taskOf c, (s.core c).task with
  | some k, some t =>
    let at_ (c : Nat) : W64 := w64 ((s.core c).stream.gate.word.getD 0 % 2 ^ 14)
    let shape (s : State) (cs : List Nat) : State :=
      cs.foldl (fun s c => s.raise c 6 false 0x17 (at_ c) (s.tide + 1)) s
    let ended (s : State) (cs : List Nat) : State :=
      (s.modCores cs (fun k => { k with epi := {} })).modTask t (fun k => { k with shielded := false })
    let whole := match (s.core c).stream.gate.cls with
      | .bar (some set) _ _ => set == (0, k.cores.length - 1)
      | _ => k.cores.length == 1
    let active := k.cores.filter (fun d => (s.core d).epi.active)
    if !whole then
      let cs := (s.concerned c).filter (fun d => (s.core d).epi.active)
      if cs.isEmpty then s else shape (ended s cs) cs
    else if active.isEmpty then s
    else if active.length ≠ k.cores.length then shape (ended s k.cores) k.cores
    else
      let bad := k.cores.filter (fun d => (s.core d).uncommittable.isSome)
      if bad.isEmpty then ended (s.commit t k) k.cores
      else bad.foldl (fun s d => s.raise d 7 false 0x15
        (ringInfo ((s.core d).uncommittable.getD 0) 7) (s.tide + 1)) (ended s k.cores)
  | _, _ => s

/-! ### Opening (R130) -/

/-- The accesses that the acquire of a gate waits for (R200, row 18 of R206): those covered by the release that a
lock's or a future's attempt has read, or by the signal that took a flag to its target (R440). -/
def State.gateCovers (s : State) (c : Nat) : Option (List Nat) :=
  let acq (order : Nat) (f : List Nat) : Option (List Nat) := if order % 2 = 1 then some f else none
  let g := (s.core c).stream.gate
  let cohort (u : LockAt) (order : Nat) : Option (List Nat) :=
    match u with
    | .cohort _ => acq order g.covers
    | .global .. => none
  match g.cls with
  | .waitf f target scope order => acq order (s.coveredBy (.flag c f target) c scope)
  | .rlk u _ order => cohort u order
  | .wlk u _ order => cohort u order
  | .take _ u _ order => cohort u order
  | .bar _ scope order =>
    acq order ((s.bars.filter (fun b => (s.concerned c).contains b.core && 2 ≤ b.order
      && inScope b.core (s.core b.core).task b.scope c (s.core c).task
      && inScope c (s.core c).task scope b.core (s.core b.core).task)).flatMap
        (fun b => (s.core b.core).covered))
  | _ => none

/-- The translation that a lock word holds is let go. -/
def Core.dropLock (k : Core) : GateClass → Core
  | .rlk (.global _ _ e) _ _ => k.dropEntries [e]
  | .wlk (.global _ _ e) _ _ => k.dropEntries [e]
  | .take _ (.global _ _ e) _ _ => k.dropEntries [e]
  | _ => k

/-- What the opening of a gate writes: RCON's slot, TAKE's value (R424, R426). -/
def Core.gateResult (k : Core) (g : Gate) : Core :=
  match g.cls with
  | .rcon d n =>
    let r := k.ring n
    (k.setRing n { r with con := r.con + 1 }).setReg d (r.slotWord r.con)
  | .take d _ _ _ => k.setReg d g.value
  | _ => k

/-- A core's next segment begins, with TBASE at its tide (R130). -/
def Core.nextSegment (k : Core) (tide tbase : Nat) : Core :=
  let st := k.stream
  let open_ (q : Queue) : Queue := { q with nxt := tbase, arrived := false, qentry := [], guard := none }
  { k with
    tbase := tbase
    gateOpen := tide
    checked := tide
    stream := { st with
      queues := st.queues.map open_
      gate := {}
      afterGate := st.afterGate && !st.segs.isEmpty
      segs := st.segs.drop 1 } }

/-- A core passes its gate. -/
def State.passGate (s : State) (c : Nat) : State :=
  let g := (s.core c).stream.gate
  let covers := s.gateCovers c
  let s : State := match covers with
    | some ids =>
      if ids.isEmpty then s
      else { s.modCore c (fun k => { k with reqs := k.reqs ++ [
        { id := s.fresh, issued := s.tide, eng := 6, ord := k.ord, op := .acquired true ids, pieces := []
          order := 1 }] }) with fresh := s.fresh + 1 }
    | none => s
  let rel := match g.cls with
    | .bar _ scope order => 3 ≤ scope && 2 ≤ order
    | _ => false
  let s := s.modCore c (fun k =>
    ((k.gateResult g).dropLock g.cls).nextSegment s.tide (s.tide + s.gateDelay c))
  if rel then s.meetErrors c else s

/-- GATE_OPEN (R130): every core that the gate concerns begins its next segment. The gate of a handler leaves the
kernel's epilogue and barriers alone. -/
def execGateOpen (core : Nat) (s : State) : Host.Outcome State Fault Refusal :=
  if (s.core core).mode == .handler then .next (s.passGate core) else
  let cs := s.concerned core
  let s := (s.closeEpilogue core).tellDies core cs
  let s := cs.foldl State.passGate s
  .next { s with bars := s.bars.filter (fun b => !cs.contains b.core) }

/-- The cores whose gates open at this tide, one for each barrier. -/
def State.openings (s : State) : List Nat :=
  ((List.range 256).filter s.opens).filter (fun c =>
    match (s.core c).stream.gate.cls with
    | .bar _ _ _ => (s.concerned c).head? == some c
    | _ => true)

end Sys2Proof.Machine
end

