-- ==== Sys2Proof/Machine/Messages.lean ====
section
/-!
DEFINITION. Timed messages between cores (R28, R29, R33): their way over die-edge links, and the tiles
that SEND carries (R430).
-/

namespace Sys2Proof.Machine

/-! ### Die-edge links (R28, R29) -/

/-- A flit of a tile at its destination (R430): the head brings the image. -/
def State.tileFlit (s : State) (send src dst index count : Nat) (image : List Byte) : State :=
  if index = 0 then
    { s with inbound := s.inbound ++ [{ send := send, src := src, dst := dst, image := image, left := count - 1 }] }
  else { s with inbound := s.inbound.map (fun x => if x.send = send then { x with left := x.left - 1 } else x) }

/-- TIMED_FLIT_ARRIVAL (R28) of the message that the subject names: it enters the next die-edge link of
its way, which it leaves 40 tc later, or has arrived. One that finds both timed slots of the tide taken is offered
again in the next tide (R29). -/
def execTimedFlitArrival (s : State) : Host.Outcome State Fault Refusal :=
  .next (match s.flits.find? (fun f => f.id == s.subject) with
    | none => s
    | some f =>
      match f.legs with
      | (link, after) :: rest =>
        if 2 ≤ s.linkUse link s.tide then s
        else { s.takeSlot link s.tide with flits := s.flits.map (fun x =>
            if x.id = f.id then { x with due := s.tide + 40 + after, legs := rest } else x) }
      | [] =>
        match f.kind with
        | .signal .. => { s with now := .event .flagSignalArrival f.id :: s.now }
        | .barrier .. => { s with now := .event .barrierArrival f.id :: s.now }
        | .tile send src dst index count image =>
          { s with flits := s.flits.filter (fun x => x.id != f.id) }.tileFlit send src dst index count
            image)

/-! ### Tiles (R430) -/

/-- A tile that is discarded, with what of it is on its way into scratchpad, or that has been published. -/
def State.dropInbound (s : State) (x : Inbound) : State :=
  { s with inbound := s.inbound.filter (fun y => y.send != x.send) }.modCore x.dst (fun k => k.dropData x.send)

def State.setInbound (s : State) (y : Inbound) : State :=
  { s with inbound := s.inbound.map (fun x => if x.send = y.send then y else x) }

/-- Why `k15` cannot take a tile: the operation of 0x15. -/
def Ring.inboxFault (r : Ring) (n : Nat) : Option Nat :=
  if !r.enabled then some 6 else if r.slotBytes < n then some 1 else none

/-- The head flit reserves a slot of `k15`; a full ring holds the flits in the router. -/
def State.reserveInbox (s : State) (x : Inbound) : State :=
  let k := s.core x.dst
  let r := k.ring 15
  match r.inboxFault x.image.length with
  | some op =>
    if k.mode == .frozen || k.mode == .handler then s
    else (s.dropInbound x).raise x.dst 6 false 0x15 (ringInfo 15 op) (s.tide + 1)
  | none =>
    if r.slots ≤ (r.rsv - r.rel).toNat then s
    else (s.modCore x.dst (fun k => k.setRing 15 { r with rsv := r.rsv + 1 })).setInbound
      { x with slot := some (r.rsv, r.gen) }

/-- The flits of a tile, and those that have arrived. -/
def Inbound.flits (x : Inbound) : Nat := (x.image.length + 255) / 256
def Inbound.arrived (x : Inbound) : Nat := x.flits - x.left

/-- Whether the slot that a tile has reserved still stands (R162). -/
def State.inboxStands (s : State) (x : Inbound) : Option W32 :=
  match x.slot with
  | some (p, gen) => if ((s.core x.dst).ring 15).gen = gen then some p else none
  | none => none

/-- Two flits a tc of a tile that has its slot pass from the router, as untimed data for the slot (R157). -/
def State.passFlits (s : State) (x : Inbound) : State :=
  match s.inboxStands x with
  | none => s
  | some p =>
    let n := Nat.min x.arrived (x.passed + 2)
    let at_ := ((s.core x.dst).ring 15).slotAddr p
    (s.modCore x.dst (fun k => k.bring x.send s.tide (at_ + 256 * x.passed)
      ((x.image.take (256 * n)).drop (256 * x.passed)))).setInbound { x with passed := n }

/-- Whether all of a tile has been written into its slot. -/
def State.inboxWritten (s : State) (x : Inbound) : Bool :=
  x.slot.isSome && x.passed == x.flits && !(s.core x.dst).awaitsData x.send

/-- SEND_ARRIVAL (R430) of the tile that the subject names: its head reserves a slot; the slot is published in the tc
after the one in whose bank cycles the last of the image was written; one whose slot has been cancelled is discarded. -/
def execSendArrival (s : State) : Host.Outcome State Fault Refusal :=
  .next (match s.inbound.find? (fun x => x.send == s.subject) with
    | none => s
    | some x =>
      if x.slot.isNone then s.reserveInbox x
      else
        match s.inboxStands x with
        | none => if x.left = 0 then s.dropInbound x else s
        | some p =>
          if s.inboxWritten x then (s.dropInbound x).modCore x.dst (fun k => k.setRing 15 ((k.ring 15).publish p))
          else s)

/-- The tiles whose heads wait for a slot, in ascending sender. -/
def State.inboxWaiting (s : State) : List Nat :=
  (sortBy (fun (x y : Inbound) => decide (x.src ≤ y.src)) (s.inbound.filter (fun x => x.slot.isNone))).map
    Inbound.send

/-- The tiles that are published at this tide, and those that are discarded, since their slot no longer stands. -/
def State.inboxOver (s : State) : List Nat :=
  (s.inbound.filter (fun x => x.slot.isSome
    && (s.inboxWritten x || (x.left == 0 && (s.inboxStands x).isNone)))).map Inbound.send

end Sys2Proof.Machine
end

