-- ==== Sys2Proof/Machine/Commands.lean ====
section
/-!
DEFINITION. Engine commands and chains (R326 to R330): when a command starts, what it moves, and how it
retires, completes or fails.
-/

namespace Sys2Proof.Machine

/-! ### Reaching bytes -/

/-- Where a run of a command's bytes lies: in the core's own storage, or in pieces of global memory. -/
inductive Reach where
  | own (p : Place)
  | pieces (ps : List Piece)
  deriving DecidableEq, Repr

/-- The target of a global address for a command: the pages translated when it was taken, then the
tables (R174, R328). -/
def State.commandTarget (s : State) (c : Nat) (pages : List TlbEntry) (a : Access) (va : Nat) :
    Checked Target :=
  match pages.find? (fun e => e.va ≤ va && va < e.va + e.size) with
  | some e =>
    if e.kind.admits a then .ok (e.target va)
    else .error (0x0F, protInfo (accessCode a) (pageCode e.kind) va)
  | none =>
    match s.walk (s.core c).part (dieOf c) a va with
    | .error w => .error (w.cause, w.info 7 va)
    | .ok l =>
      if l.kind.admits a then .ok (l.target va)
      else .error (0x0F, protInfo (accessCode a) (pageCode l.kind) va)

def State.commandPieces (s : State) (c : Nat) (pages : List TlbEntry) (a : Access) :
    List (Nat × Nat) → Checked (List Piece)
  | [] => .ok []
  | (va, n) :: rest =>
    match s.commandTarget c pages a va with
    | .error f => .error f
    | .ok t =>
      match s.commandPieces c pages a rest with
      | .error f => .error f
      | .ok ps => .ok (⟨va, t, n⟩ :: ps)

/-- What a command reaches through a pointer (R149): its own core's windows and global memory, aligned as R154
says; its record, the one access `.store` here, lies at 32 B (R326). The value of a handle is reached in
`State.reachEnd`; no write goes through a handle. -/
def State.reach (s : State) (c : Nat) (pages : List TlbEntry) (p : W64) (n : Nat) (a : Access) :
    Checked Reach :=
  let k := s.core c
  let ok (o : Nat) : Bool := if a = .store then o % 32 == 0 else aligned o n
  let own (off : Nat) : Checked Reach :=
    if !ok off then .error (0x16, p)
    else if a ≠ .command && k.touchesHeap off n then .error (0x0F, protInfo 0 7 off) else .ok (.own (.scratch off))
  match spaceOf p with
  | .bad => .error (0x0D, p)
  | .global va =>
    if 2 ^ 57 < va + n then .error (0x0D, p)
    else if !ok va then .error (0x16, p)
    else
      match s.commandPieces c pages a (runsOf va n) with
      | .ok ps => .ok (.pieces ps)
      | .error f => .error f
  | .priv o => if k.privSize < o + n then .error (0x0F, protInfo 5 7 o) else own (k.privBase + o)
  | .scratch d o =>
    if d ≠ k.vid then .error (0x0C, p) else if 2 ^ 22 < o + n then .error (0x0D, p) else own o
  | .cohort h o =>
    if h ≠ cohortOf k.vid then .error (0x0C, p)
    else if 2 ^ 23 < o + n then .error (0x0D, p)
    else if !ok o then .error (0x16, p)
    else .ok (.own (placeOf c 2 o))
  | .value d _ _ => if d ≠ k.vid then .error (0x0C, p) else .error (0x0F, protInfo 4 7 p.toNat)

/-- The fault of a read that gives no data, for a piece. -/
def Fetched.fault (f : Fetched) (va : Nat) : Nat × W64 :=
  match f with
  | .bad off => (0x19, w64 (7 * 2 ^ 60 + (va + off) / 64 * 64))
  | _ => (0x0E, transInfo 7 3 va)

/-- Bytes read by a command from what it reaches, and the corrected errors met. -/
def State.readReach (s : State) (c n : Nat) : Checked Reach → Checked (List Byte × Nat) × State
  | .error f => (.error f, s)
  | .ok (.own at_) => (.ok (s.bytesAt c at_ n, 0), s)
  | .ok (.pieces ps) =>
    let fixed := (ps.map (fun x => s.targetCorrected x.target x.len)).sum
    match s.fetchPieces (dieOf c) ps with
    | (.ok bs, s) => (.ok (bs, fixed), s)
    | (.error (va, f), s) => (.error (f.fault va), s)

/-- Bytes written by a command to what it reaches. -/
def State.writeReach (s : State) (c : Nat) (bs : List Byte) : Checked Reach → Option (Nat × W64) × State
  | .error f => (some f, s)
  | .ok (.own at_) => (none, (s.storeBytes c at_ bs).endReleases at_ bs.length)
  | .ok (.pieces ps) =>
    match s.storePieces (dieOf c) ps bs with
    | (some va, s) => (some (0x0E, transInfo 7 3 va), s)
    | (none, s) => (none, s)

/-! ### Moving data (R327) -/

/-- A signed 32-bit field. -/
def signed32 (w : W64) (lo : Nat) : Int := sextNat 32 (wbits w (lo + 31) lo)

/-- The extents of a command. -/
def cmdExtents (ws : List W64) : Nat × Nat × Nat × Nat :=
  let w := ws.getD 3 0
  (wbits w 63 48 + 1, wbits w 47 32 + 1, wbits w 31 16 + 1, wbits w 15 0 + 1)

/-- The elements of a command in ascending order: their source and destination offsets. -/
def cmdElements (ws : List W64) : List (Int × Int) :=
  let n := cmdExtents ws
  let w (i : Nat) : W64 := ws.getD i 0
  let size (t : Nat) : Int := Int.ofNat (elemBits t / 8)
  (List.range n.2.2.2).flatMap (fun i3 => (List.range n.2.2.1).flatMap (fun i2 =>
    (List.range n.2.1).flatMap (fun i1 => (List.range n.1).map (fun i0 =>
      (Int.ofNat i0 * size (cmdStype ws) + Int.ofNat i1 * signed32 (w 4) 32 + Int.ofNat i2 * signed32 (w 4) 0
        + Int.ofNat i3 * signed32 (w 5) 32,
       Int.ofNat i0 * size (cmdDtype ws) + Int.ofNat i1 * signed32 (w 5) 0 + Int.ofNat i2 * signed32 (w 6) 32
        + Int.ofNat i3 * signed32 (w 6) 0)))))

/-- A pointer moved by a signed number of bytes. -/
def movePtr (p : W64) (d : Int) : W64 := BitVec.ofInt 64 ((p.toNat : Int) + d)

/-- The offset of a pointer in its window. -/
def windowOffset (p : W64) : Nat :=
  match wbits p 63 60 with
  | 8 => wbits p 19 0
  | 9 => wbits p 21 0
  | 10 => wbits p 22 0
  | 11 => 0
  | _ => wbits p 56 0

/-- Where an element goes to or comes from: through a pointer, in the command's slot (RROLE), or in the value
that a handle names, from its first block on (R149; log 26). -/
inductive End where
  | ptr (p : W64)
  | slot (off : Int)
  | value (b n : Nat) (off : Int)
  deriving DecidableEq, Repr

/-- The source of an element, from its offset. -/
def Command.source (x : Command) (off : Int) : End :=
  if cmdRole x.words = 2 then .slot ((windowOffset (cmdSrc x.words) : Int) + off)
  else
    match x.hold with
    | some (b, n) => .value b n off
    | none => .ptr (movePtr (cmdSrc x.words) off)

/-- The destination of an element, from its offset. -/
def Command.target (x : Command) (off : Int) : End :=
  if cmdRole x.words = 1 then .slot ((windowOffset (cmdDst x.words) : Int) + off)
  else .ptr (movePtr (cmdDst x.words) off)

/-- Bytes of a slot as an offset in scratchpad, if the slot holds them. -/
def Core.slotRun (k : Core) (c : Command) (off : Int) (n : Nat) : Checked Nat :=
  let r := k.ring (cmdRing c.words)
  if off < 0 || (r.slotBytes : Int) < off + n then
    .error (0x15, ringInfo (cmdRing c.words) (if cmdRole c.words = 1 then 1 else 3))
  else .ok (r.slotAddr c.pos + off.toNat)

/-- What an element of a command reaches. -/
def State.reachEnd (s : State) (c : Nat) (x : Command) (e : End) (n : Nat) (a : Access) : Checked Reach :=
  match e with
  | .ptr p => s.reach c x.pages p n a
  | .slot off =>
    match (s.core c).slotRun x off n with
    | .ok o => s.reach c x.pages (scratchPtr (s.core c).vid o) n a
    | .error f => .error f
  | .value b m off =>
    if off < 0 || (4096 * m : Int) < off + n then .error (0x0D, cmdSrc x.words)
    else if !aligned off.toNat n then .error (0x16, cmdSrc x.words)
    else .ok (.own (.scratch ((s.core c).blockAddr b + off.toNat)))

/-- Bytes of a source and of a destination element. -/
def Command.srcBytes (x : Command) : Nat := elemBits (cmdStype x.words) / 8
def Command.dstBytes (x : Command) : Nat := elemBits (cmdDtype x.words) / 8

/-- An element converted (R275, R276); `index` numbers it for stochastic rounding. -/
def convertElement (ws : List W64) (sr : SrRegs) (index : Nat) (bs : List Byte) : List Byte :=
  let ctx : RoundCtx := ⟨cmdMode ws, cmdSat ws, sr⟩
  packElems (elemBits (cmdDtype ws)) ((unpack (elemBits (cmdStype ws)) bs).map (fun x =>
    (convert (cmdStype ws) (cmdDtype ws) (ctx.at index) (cmdSat ws) x).1))

/-- The line that an element lies in, for counting what is met line by line. -/
def End.line : End → Int
  | .ptr p => Int.ofNat (p.toNat / 64)
  | .slot off => off / 64
  | .value _ _ off => off / 64

/-- Banks of a core's scratchpad that have their use of a tide, each with the access that has it: 0 for one that
shares it with none, else a command's access to a line, which serves every element of the line (R157). -/
abbrev Grants := List (Nat × Nat)

/-- Whether banks have no use yet, and their use taken. -/
def banksFree (g : Grants) (bs : List Nat) : Bool := bs.all (fun b => !g.any (fun y => y.1 == b))
def grantBanks (g : Grants) (bs : List Nat) : Grants := bs.map (fun b => (b, 0)) ++ g

/-- The banks of what a run of bytes reaches in a core's own scratchpad. -/
def ownBanks (n : Nat) : Checked Reach → List Nat
  | .ok (.own (.scratch o)) => banksOf o n
  | _ => []

/-- The banks of a core that something has used. -/
def State.useBanks (s : State) (c : Nat) (bs : List Nat) : State :=
  s.modCore c (fun k => { k with bankUse := grantBanks k.bankUse bs })

/-- The number of a command's access to a line of scratchpad. -/
def lineAccess (x : Command) (write : Bool) (off : Nat) : Nat :=
  ((2 * x.id + if write then 1 else 0) * 2 + 1) * 2 ^ 16 + off / 64

/-- Whether an access of an element finds its bank free, in scratchpad (R157) or in memory (R219), and its station
with nothing that was issued before it (R36). With `all` it waits for no bank of scratchpad. -/
def State.elementFree (s : State) (c : Nat) (all : Bool) (g : Grants) (x : Command) (write : Bool) :
    Checked Reach → Bool
  | .ok (.own (.scratch o)) => all || g.all (fun y => y.1 != o / 64 % 32 || y.2 == lineAccess x write o)
  | .ok (.pieces ps) => ps.all (fun p => !s.targetBusy p.target p.len && !s.stationHeld (dieOf c) x.moves.since p)
  | _ => true

/-- The banks taken once an access of an element has been made. -/
def elementGrant (g : Grants) (x : Command) (write : Bool) : Checked Reach → Grants
  | .ok (.own (.scratch o)) => (o / 64 % 32, lineAccess x write o) :: g
  | _ => g

/-- The tide at which a command began to move data. -/
def Command.began (x : Command) : Nat :=
  match x.state with
  | .moving start _ => start
  | .moved start _ => start
  | _ => 0

/-- Whether a command moves data. -/
def Command.isMoving (x : Command) : Bool :=
  match x.state with
  | .moving .. => true
  | _ => false

/-- A command whose move has come to its end. -/
def Command.stopped (x : Command) (fault : Option (Nat × W64)) : Command := { x with state := .moved x.began fault }

/-- The elements of a command. -/
def Command.elements (x : Command) : Nat :=
  let n := cmdExtents x.words
  n.1 * n.2.1 * n.2.2.1 * n.2.2.2

/-- A command whose last element has been read holds its value no longer (R188). -/
def State.endHold (s : State) (c : Nat) (x : Command) : Command × State :=
  match x.hold with
  | some (b, n) =>
    if x.elements ≤ x.moves.next + 1 then ({ x with hold := none }, s.modCore c (fun k => k.unholdValue b n))
    else (x, s)
  | none => (x, s)

/-- A table entry that could not be read on the way to an end of an element is counted (R235). -/
def State.countEnd (s : State) (c : Nat) (e : End) (code : Nat) : State :=
  match e with
  | .ptr p => if code = 0x19 then s.countTables (s.core c).part (globalBase p) else s
  | _ => s

/-- The read of the next element of a command (R327), converted where it converts. Corrected reads of one line
after another count once. -/
def State.readElement (s : State) (c : Nat) (x : Command) (off : Int) (r : Checked Reach) : Command × State :=
  match s.readReach c x.srcBytes r with
  | (.error f, s) => (x.stopped (some f), s.countEnd c (x.source off) f.1)
  | (.ok (bs, more), s) =>
    let (x, s) := s.endHold c x
    let here := (x.source off).line
    let bs := if cmdKind x.words = 2 then convertElement x.words (s.core c).sr x.moves.next bs else bs
    ({ x with moves := { x.moves with
        bytes := some bs, line := some here
        fixed := if x.moves.line = some here then x.moves.fixed else x.moves.fixed + more } }, s)

/-- The write of the element that a command has read. -/
def State.writeElement (s : State) (c : Nat) (x : Command) (off : Int) (bs : List Byte) (r : Checked Reach) :
    Command × State :=
  match s.writeReach c bs r with
  | (some f, s) => (x.stopped (some f), s.countEnd c (x.target off) f.1)
  | (none, s) => ({ x with moves := { x.moves with bytes := none, next := x.moves.next + 1 } }, s)

/-- One access of a command for its next element: the read, or the write of what has been read; none where its
bank is taken or scans. With `all` it waits for no bank of scratchpad. -/
def State.moveAccess (s : State) (c : Nat) (all : Bool) (g : Grants) (x : Command) (e : Int × Int) :
    Option (Command × Grants × State) :=
  match x.moves.bytes with
  | none =>
    if cmdKind x.words = 3 then
      some ({ x with moves := { x.moves with bytes := some (bytesOfNat x.dstBytes (cmdSrc x.words).toNat) } }, g, s)
    else
      let r := s.reachEnd c x (x.source e.1) x.srcBytes .command
      if s.elementFree c all g x false r then
        let y := s.readElement c x e.1 r
        some (y.1, elementGrant g x false r, y.2)
      else none
  | some bs =>
    let r := s.reachEnd c x (x.target e.2) bs.length .commandStore
    if s.elementFree c all g x true r then
      let y := s.writeElement c x e.2 bs r
      some (y.1, elementGrant g x true r, y.2)
    else none

/-- Accesses of a command for its elements in order, each read and written before the next, until it has to wait or
has come to its end. -/
def State.moveRun (s : State) (c : Nat) (all : Bool) (es : List (Int × Int)) (g : Grants) (x : Command) :
    Nat → Command × Grants × State
  | 0 => (x, g, s)
  | n + 1 =>
    if !x.isMoving then (x, g, s)
    else
      match es[x.moves.next]? with
      | none => (x.stopped none, g, s)
      | some e =>
        match s.moveAccess c all g x e with
        | none => (x, g, s)
        | some (x, g, s) => s.moveRun c all es g x n

/-- The elements that lie in the first `n` lines that a command writes, one after another, and before them those
that lie in a line that it has begun. -/
def Command.firstLines (x : Command) : Nat → List (Int × Int) → Option Int → List (Int × Int)
  | _, [], _ => []
  | n, r :: rest, line =>
    let here := (x.target r.2).line
    if line = some here then r :: x.firstLines n rest line
    else
      match n with
      | 0 => []
      | m + 1 => r :: x.firstLines m rest (some here)

/-- The elements that a command still moves: those of its descriptor, or of its lines up to where it was cut short. -/
def Command.remaining (x : Command) : List (Int × Int) :=
  match x.moves.limit with
  | some (n, _) => (cmdElements x.words).take n
  | none => cmdElements x.words

/-- A command that a stop or the end of its gang cuts short (R118, R463): it ends at the end of a line, a free number
of lines further on, with a status. -/
def Command.cutAt (x : Command) (lines status : Nat) : Command :=
  let es := cmdElements x.words
  let begun := (es[x.moves.next - 1]?).filter (fun _ => x.moves.next != 0)
  let more := x.firstLines lines (es.drop x.moves.next) (begun.map (fun e => (x.target e.2).line))
  { x with moves := { x.moves with limit := some (x.moves.next + more.length, status) } }

/-- Pieces of global memory that something reaches. -/
def reachPieces : Checked Reach → List Piece
  | .ok (.pieces ps) => ps
  | _ => []

/-- The pieces of global memory that a command's elements and its record reach. -/
def State.commandReach (s : State) (c : Nat) (x : Command) : List Piece :=
  (cmdElements x.words).flatMap (fun r =>
    (if cmdKind x.words = 3 then [] else reachPieces (s.reachEnd c x (x.source r.1) x.srcBytes .command)) ++
    reachPieces (s.reachEnd c x (x.target r.2) x.dstBytes .commandStore)) ++
  (if cmdCompl x.words = 0 then [] else reachPieces (s.reach c x.pages (cmdCompl x.words) 32 .store))

def State.commandTouches (s : State) (c : Nat) (x : Command) (f : Piece → Bool) : Bool :=
  (s.commandReach c x).any f

/-! ### Completion -/

/-- A completion record in the layout of R58. -/
def recordBytes (status cause ncorr : Nat) (detail : Nat) (tag : W64) (start end_ : Nat) : List Byte :=
  bytesOfWords [w64 (status * 2 ^ 56 + cause % 256 * 2 ^ 48 + Nat.min 255 ncorr * 2 ^ 32 + detail % 2 ^ 32),
    tag, w64 start, w64 end_]

/-- A command leaves its core: its pages and its value are let go. -/
def Core.dropCommand (k : Core) (x : Command) : Core :=
  { k.dropEntries (x.pages.map TlbEntry.id) with cmds := k.cmds.filter (fun y => y.id != x.id) }.letGo x

/-- A chain slot after an entry of it has failed or been ended. -/
def Chain.failed (c : Chain) : Chain := { c with run := false, stop := none, err := true, rep := 0, entry := [] }

def Core.failChain (k : Core) (x : Command) : Core :=
  match x.slot with
  | some j => k.setChain j (k.chain j).failed
  | none => k

/-- A command's completion record written to COMPL, if it has one and no function-level reset holds it back (R64),
or the fault that keeps it from being written. -/
def State.writeRecord (s : State) (c : Nat) (x : Command) (status cause ncorr : Nat) : Option (Nat × W64) × State :=
  let r := s.reach c x.pages (cmdCompl x.words) 32 .store
  let held (p : Piece) : Bool := (s.taskOf c).any (fun k => s.recordHeld k.vf p.target)
  if cmdCompl x.words = 0 || (reachPieces r).any held then (none, s)
  else
    (s.useBanks c (ownBanks 32 r)).writeReach c (recordBytes status cause ncorr 0 (x.words.getD 10 0) x.began s.tide) r

/-- Whether a command's record waits: for a bank that scans (R219), for a bank of scratchpad (R157), or for what was
issued before it through its station (R36). -/
def State.recordBusy (s : State) (c : Nat) (x : Command) : Bool :=
  let r := s.reach c x.pages (cmdCompl x.words) 32 .store
  cmdCompl x.words != 0 && (!banksFree (s.core c).bankUse (ownBanks 32 r) ||
    (reachPieces r).any (fun p => s.targetBusy p.target p.len || s.stationHeld (dieOf c) x.moves.since p))

/-- A command that ends without its effect (R162, R328): its record, or the core's engine fault; a record that
cannot be written leaves the engine fault with the cause of the command's end (log 26). -/
def State.failCommand (s : State) (c : Nat) (x : Command) (code : Nat) (info : W64) : State :=
  let (bad, s) := s.writeRecord c x 0x03 code 0
  let s := s.modCore c (fun k => (k.dropCommand x).failChain x)
  if cmdCompl x.words = 0 || bad.isSome then s.engineFault c 7 false code info else s

def Core.setCommand (k : Core) (x : Command) : Core :=
  { k with cmds := k.cmds.map (fun z => if z.id = x.id then x else z) }

/-- A command that is cut short and has come to its end: its record, once that can be written (R219). -/
def State.closeCommand (s : State) (c : Nat) (x : Command) (status : Nat) : State :=
  if s.recordBusy c x then
    s.modCore c (fun k => k.setCommand { x.stopped none with moves := { x.moves with limit := some (0, status) } })
  else (s.writeRecord c x status 0 0).2.modCore c (fun k => k.dropCommand x)

/-- A command that a stop or the end of its gang ends (R118, R463), with a status. What it still moves, and its
record, wait for banks that scan, and for them alone. -/
def State.endCommand (s : State) (c : Nat) (x : Command) (status : Nat) : State :=
  match x.moves.limit with
  | some _ => s
  | none =>
    if x.isMoving then
      let y := x.cutAt (Config.linesMoved s.fresh) status
      let es := y.remaining
      let (z, _, s) := { s with fresh := s.fresh + 1 }.moveRun c true es [] y (2 * es.length + 1)
      if z.isMoving then s.modCore c (fun k => k.setCommand z) else s.closeCommand c z status
    else s.closeCommand c x status

/-- A chain after a repeat of its entry has retired (R330): the repeats of an entry are one entry, after which a
stop that was asked for takes effect (R329). -/
def Chain.retired (c : Chain) (ws : List W64) (ready : Nat) : Chain :=
  if c.rep < cmdRep ws then { c with ready := ready, rep := c.rep + 1 }
  else
    let c := { c with ready := ready, rep := 0, entry := [], next := ws.getD 13 0, done := c.done + 1 }
    if c.stop.isSome || c.next = 0 then { c with run := false, stop := none } else c

/-- The flags of a mask. -/
def flagsOfMask (m : Nat) : List Nat := (List.range 32).filter (fun f => m / 2 ^ f % 2 == 1)

/-- A command retires (R327): its slot is published or released, its flags are signalled in the next tc
(R336), and its record is written. A record that cannot be written fails the entry (R330) and leaves an engine
fault (log 26). -/
def State.retireCommand (s : State) (c : Nat) (x : Command) (ncorr : Nat) : State :=
  let ws := x.words
  let n := cmdRing ws
  let s := if cmdRole ws = 1 then s.modCore c (fun k => k.setRing n ((k.ring n).publish x.pos))
    else if cmdRole ws = 2 then s.modCore c (fun k => k.setRing n ((k.ring n).release x.pos))
    else s
  let signals : List Perform := (flagsOfMask (wbits (ws.getD 8 0) 63 32)).map (fun f =>
    { at_ := s.tide + 1, eng := 7, ord := (s.core c).ord, op := .signal f, exposed := false })
  let (bad, s) := s.writeRecord c x (if ncorr = 0 then 0 else 1) 0 ncorr
  let (d, s) := s.later 1
  let s := s.modCore c (fun k =>
    let k := k.dropCommand x
    let k := { k with inflight := k.inflight ++ signals }
    match x.slot with
    | some j => k.setChain j (if bad.isSome then (k.chain j).failed else (k.chain j).retired ws d)
    | none => k)
  match bad with
  | some (code, info) => s.engineFault c 7 false code info
  | none => s

/-! ### Start -/

def Core.command (k : Core) (id : Nat) : Option Command := k.cmds.find? (fun x => x.id == id)

/-- The number that stands for a command in core order. -/
def Core.commandOrder (k : Core) (x : Command) : Nat :=
  match x.slot with
  | some j => (k.chain j).after
  | none => x.id

/-- Whether the flags that a command waits for have come, with what the releases cover that took them there (R196,
R440; log 68). -/
def State.flagsCome (s : State) (c : Nat) (ws : List W64) : Bool :=
  (flagsOfMask (wbits (ws.getD 7 0) 63 32)).all (fun f =>
    reaches ((s.core c).flag f) ((ws.getD 7 0).setWidth 32)
      && (s.coveredBy (.flag c f ((ws.getD 7 0).setWidth 32)) c 3).all (fun i => !s.outstandingIds.contains i))

/-- Whether a command's ring has been configured with EN 0 since the command was posted (R162). -/
def Core.doomed (k : Core) (x : Command) : Bool :=
  cmdRole x.words != 0 && (k.ring (cmdRing x.words)).gen != x.gen

/-- Whether a command starts at this tide, goes on with the slot that it has waited for, or fails (R162,
R327). -/
def State.startable (s : State) (c : Nat) (x : Command) : Bool :=
  let k := s.core c
  let r := k.ring (cmdRing x.words)
  let start := ((s.taskOf c).map Task.start).getD 0
  match x.state with
  | .moving .. => false
  | .moved .. => false
  | .taken => k.doomed x || reaches r.pub (x.pos + 1)
  | .posted => k.doomed x || (x.ready ≤ s.tide && !k.holdsService (k.commandOrder x)
    && start + cmdStart x.words + k.slip ≤ s.tide && s.flagsCome c x.words
    && (!r.enabled || cmdRole x.words != 1 || decide ((r.rsv - r.rel).toNat < r.slots)))

/-- The remote pod of a transport endpoint. -/
def Piece.remotePod (p : Piece) : Option Nat :=
  match p.target with
  | .transport pod _ => some pod
  | _ => none

/-- Whether a command moves data to or from a transport endpoint (R44). -/
def State.overEthernet (s : State) (c : Nat) (x : Command) : Bool :=
  s.commandTouches c x (fun p => p.remotePod.isSome)

/-- A command begins to move data: after a free time (log 3), or with a transfer over Ethernet (R44). -/
def State.moveCommand (s : State) (c : Nat) (x : Command) : State :=
  let (d, s) := s.later 1
  s.modCore c (fun k => k.setCommand { x with
    state := .moving s.tide (if s.overEthernet c x then none else some d), moves := { since := d } })

/-- A command that starts takes its slot: a producer's is reserved, a consumer takes the position CON and waits
until PUB has passed it (R327). -/
def State.beginCommand (s : State) (c : Nat) (x : Command) (r : Ring) : State :=
  let n := cmdRing x.words
  if cmdRole x.words = 1 then
    (s.modCore c (fun k => k.setRing n { r with rsv := r.rsv + 1 })).moveCommand c { x with pos := r.rsv }
  else if cmdRole x.words = 2 then
    let y := { x with state := .taken, pos := r.con }
    let s := s.modCore c (fun k => (k.setRing n { r with con := r.con + 1 }).setCommand y)
    if reaches r.pub (r.con + 1) then s.moveCommand c y else s
  else s.moveCommand c x

/-- ENGINE_COMMAND_START (R327). -/
def execEngineCommandStart (core cmd : Nat) (s : State) : Host.Outcome State Fault Refusal :=
  .next (match (s.core core).command cmd with
    | none => s
    | some x =>
      let n := cmdRing x.words
      let r := (s.core core).ring n
      if (s.core core).doomed x || (cmdRole x.words ≠ 0 && !r.enabled) then
        if s.recordBusy core x then s else s.failCommand core x 0x15 (ringInfo n 6)
      else if x.state = .taken then s.moveCommand core x
      else s.beginCommand core x r)

/-! ### Untimed data at the banks (R157) -/

/-- Whether a command has accesses to make at a tide. -/
def Command.movesAt (x : Command) (tide : Nat) : Bool :=
  match x.state with
  | .moving _ (some t) => t ≤ tide
  | _ => false

/-- The accesses that a command makes at this tide, with the banks that the last tide has left (R157); one whose ring
has been configured anew makes none (R162). -/
def State.commandTurn (s : State) (c : Nat) (x : Command) : State :=
  if (s.core c).doomed x then
    s.modCore c (fun k => k.setCommand (x.stopped (some (0x15, ringInfo (cmdRing x.words) 6))))
  else
    let es := x.remaining
    let (y, g, s) := s.moveRun c false es (s.core c).bankUse x (2 * es.length + 1)
    let y := if y.moves = x.moves && y.state = x.state then y
      else { y with moves := { y.moves with since := s.tide + 1 } }
    s.modCore c (fun k => { k.setCommand y with bankUse := g })

/-- A line of untimed data, written or read if the last tide has left its bank a cycle. -/
def State.lineTurn (s : State) (c : Nat) (a : Arriving) : State :=
  let k := s.core c
  let b := a.off / 64 % 32
  if !banksFree k.bankUse [b] || !k.arriving.contains a then s
  else s.modCore c (fun k =>
    { k.storeScratch a.off a.bytes with arriving := k.arriving.erase a, bankUse := (b, 0) :: k.bankUse })

/-- The act of a command that may move data. -/
def State.moveTurn (s : State) (c id : Nat) : State :=
  match (s.core c).command id with
  | some x => if x.movesAt s.tide then s.commandTurn c x else s
  | none => s

/-- The banks of scratchpad that the timed operations of a tide use, from which the untimed accesses of the next tide
are kept: they take the cycles that are left (R157). -/
def Core.noteBanks (k : Core) (tide : Nat) : Core :=
  { k with bankUse := (((k.dueAt tide).flatMap Perform.banks).filter (fun b => b != cohortSlot)).map (fun b => (b, 0)) }

/-- Whether a command has come to the end of its move. -/
def Command.isMoved (x : Command) : Bool :=
  match x.state with
  | .moved .. => true
  | _ => false

/-- ENGINE_COMMAND_RETIRE (R327) of a command that has come to the end of its move, once its record can be
written. -/
def execEngineCommandRetire (core cmd : Nat) (s : State) : Host.Outcome State Fault Refusal :=
  .next (match (s.core core).command cmd with
    | none => s
    | some x =>
      if s.recordBusy core x then s
      else if let some (_, status) := x.moves.limit then
        (s.writeRecord core x status 0 0).2.modCore core (fun k => k.dropCommand x)
      else
        match x.state with
        | .moved _ (some (code, info)) => s.failCommand core x code info
        | .moved _ none =>
          if (s.core core).doomed x then s.failCommand core x 0x15 (ringInfo (cmdRing x.words) 6)
          else s.retireCommand core x x.moves.fixed
        | _ => s)

/-! ### Chains (R330) -/

/-- SRC and DST after some repeats. -/
def advanced (ws : List W64) (rep : Nat) : List W64 :=
  let w := ws.getD 12 0
  (ws.set 1 (movePtr (cmdSrc ws) (Int.ofNat rep * signed32 w 32)))
    |>.set 2 (movePtr (cmdDst ws) (Int.ofNat rep * signed32 w 0))

/-- A chain's entry cannot be read: the fault has no record to go to. -/
def State.failSlot (s : State) (c j code : Nat) (info : W64) : State :=
  (s.modCore c (fun k => k.setChain j (k.chain j).failed)).engineFault c 7 false code info

/-- The first base of an entry that cannot be translated (R328, R330). -/
def State.baseFault (s : State) (c : Nat) (ws : List W64) : Option (Nat × W64) :=
  (commandBases ws).findSome? (fun b => match s.commandTarget c [] b.2 b.1 with
    | .ok _ => none
    | .error f => some f)

/-- An entry that fails as it is taken, at once or once its record can be written. -/
def State.failEntry (s : State) (c : Nat) (x : Command) (code : Nat) (info : W64) : State :=
  if s.recordBusy c x then
    s.modCore c (fun k => { k with cmds := k.cmds ++ [{ x with
      state := .moved 0 (some (code, info)), moves := { since := s.tide } }] })
  else s.failCommand c x code info

/-- An entry taken: checked, and posted as a command of its slot. -/
def State.takeEntry (s : State) (c j : Nat) (ws : List W64) : State :=
  let k := s.core c
  let (n, s) := s.number
  let (d, s) := s.later 1
  let x : Command := { id := n, words := advanced ws (k.chain j).rep, slot := some j, rep := (k.chain j).rep
                       ready := d, gen := (k.ring (cmdRing ws)).gen }
  match firstFault (commandChecks true ws) with
  | some (code, info) => s.failEntry c x code info
  | none =>
    match k.sourceValue x.words with
    | .error (code, info) => s.failEntry c x code info
    | .ok v =>
      match s.baseFault c x.words with
      | some (code, info) =>
        (if code = 0x19 then s.countTables k.part ((commandBases x.words).map Prod.fst) else s).failEntry
          c x code info
      | none => s.modCore c (fun k =>
          (k.setChain j { k.chain j with entry := ws }).addCommand { x with hold := v })

/-- CHAIN_ENTRY_FETCH (R330): a running chain fetches its next entry, or repeats the entry that it has. -/
def execChainEntryFetch (core slot : Nat) (s : State) : Host.Outcome State Fault Refusal :=
  let k := s.core core
  let c := k.chain slot
  .next (if c.rep ≠ 0 && !c.entry.isEmpty then s.takeEntry core slot c.entry
    else if c.next = 0 then s.modCore core (fun k => k.setChain slot { c with run := false })
    else
      match deref k c.next .ownOrGlobal (fun x => x % 128 == 0) with
      | .error (code, info) => s.failSlot core slot code info
      | .ok _ =>
        let r := s.reach core [] c.next 128 .command
        match (s.useBanks core (ownBanks 128 r)).readReach core 128 r with
        | (.error (code, info), s) => (s.countEnd core (.ptr c.next) code).failSlot core slot code info
        | (.ok (bs, _), s) => s.takeEntry core slot (words64 16 bs))

/-- Whether a chain has to read the entry that it takes next: one under way is read again after a restart (R335). -/
def Chain.reads (x : Chain) : Bool := x.rep == 0 || x.entry.isEmpty

/-- Whether the entry that a chain fetches next waits: for a bank that scans (R219), for banks of scratchpad (R157), or
for what was issued before it through its station (R36). -/
def State.entryBusy (s : State) (c : Nat) (x : Chain) : Bool :=
  let r := s.reach c [] x.next 128 .command
  x.reads && (!banksFree (s.core c).bankUse (ownBanks 128 r) ||
    (reachPieces r).any (fun p => s.targetBusy p.target p.len || s.stationHeld (dieOf c) x.ready p))

/-- The chains of a core that fetch at this tide: one that was asked to stop goes on with the repeats of the
entry that has started. -/
def State.fetching (s : State) (c : Nat) : List Nat :=
  let k := s.core c
  (List.range 8).filter (fun j =>
    let x := k.chain j
    x.run && (x.stop.isNone || x.rep != 0) && x.ready ≤ s.tide && !k.cmds.any (fun y => y.slot == some j)
      && !k.holdsService x.after && !s.entryBusy c x)

/-- Slots that were asked to stop in an earlier tc and have no entry under way clear RUN (R329, R336). -/
def Core.clearStops (k : Core) (tide : Nat) : Core :=
  (List.range 8).foldl (fun k j =>
    let x := k.chain j
    if x.stop.any (fun t => decide (t < tide)) && x.rep == 0 && !k.cmds.any (fun y => y.slot == some j) then
      k.setChain j { x with run := false, stop := none }
    else k) k

end Sys2Proof.Machine
end

