-- ==== Sys2Proof/Machine/Links.lean ====
section
/-!
DEFINITION. Links to other silicon (spec/02): flits that cannot be corrected and links that go down (R33,
R34), UALink stations (R36 to R38), the reduction inbox (R39 to R43), accesses from other packages (R42),
and Ultra Ethernet (R44).
-/

namespace Sys2Proof.Machine

/-! ### What the package presents -/

/-- Whether a function of the package is presented (R23, R24): all once the package is ready, PF0 alone in
recovery wait. -/
def State.presents (s : State) (fn : Nat) : Bool := s.boot == .ready || (s.boot == .recovery && fn == 0)

/-- A step that the outside world brings about, taken only where the package presents itself. -/
def State.whenReady (s : State) (f : State → State) : Host.Outcome State Fault Refusal :=
  .next (if s.boot = .ready then f s else s)

/-! ### Die-edge links (R33, R34) -/

/-- The link of an edge: dies 0 and 1, 1 and 3, 3 and 2, 2 and 0 (R12). -/
def edgeOf (d e : Nat) : Nat :=
  match Nat.min d e, Nat.max d e with
  | 0, 1 => 0
  | 1, 3 => 1
  | 2, 3 => 2
  | _, _ => 3

/-- The edges that timed messages from die d to die e cross. -/
def edgesBetween (d e : Nat) : List Nat := (dieLegs d e).map (fun l => edgeOf (l.1 / 4) (l.1 % 4))

/-- The edges that a gang's timed traffic crosses, whichever of its cores send. -/
def edgesOf (cores : List Nat) : List Nat :=
  let ds := (cores.map dieOf).eraseDups
  (ds.flatMap (fun d => ds.flatMap (fun e => edgesBetween d e))).eraseDups

/-- Whether a gang's timed traffic uses an edge: between its dies, or with a message under way. -/
def State.usesEdge (s : State) (t : Nat) (k : Task) (edge : Nat) : Bool :=
  (edgesOf k.cores).contains edge || s.flits.any (fun f => f.task == some t
    && f.legs.any (fun l => edgeOf (l.1 / 4) (l.1 % 4) == edge))

/-- A task that is to end with FAILED_FAULT: one that runs is failed; one that a stop has halted, or that waits
for its acknowledgements, takes the verdict in which it ends, unless it has one (R33, R38). -/
def State.failTask (s : State) (t cause : Nat) : State :=
  match s.task? t with
  | none => s
  | some k =>
    match k.cores with
    | [] => s
    | c :: _ =>
      let d : W32 := BitVec.ofNat 32 (s.core c).vid
      if k.state == .stopping || (k.state == .ending && k.endTide.isSome) then
        s.modTask t (fun k => if k.verdict.isSome then k else
          { k with verdict := some ⟨0x03, BitVec.ofNat 8 cause, d⟩ })
      else s.fail c cause d

/-- Every core of a gang records an uncorrectable error consumed, and its task fails (R33). R58 gives DETAIL the
virtual id of the core that faulted; here every core has, and the model gives its first (log 49). -/
def State.linkFault (s : State) (t : Nat) (k : Task) : State :=
  let d := Config.eventDetail s.fresh
  ({ s with fresh := s.fresh + 1 }.modCores k.cores (fun c =>
    { c with fcause := fcauseOf false true (wbits d 63 61) 0x19, finfo := d })).failTask t 0x19

/-- Tasks whose gangs run, or whose cores a stop has yet to release. -/
def Task.onCores (k : Task) : Bool := k.state == .running || k.state == .stopping

/-- UNCORRECTABLE_FLIT (R33, R34): a timed flit freezes the gangs that use the link; the sixteenth within
one second marks it down. -/
def execUncorrectableFlit (edge : Nat) (timed : Bool) (s : State) : Host.Outcome State Fault Refusal :=
  s.whenReady (fun s =>
    let s := if timed then
        s.tasks.foldl (fun s e =>
          match s.task? e.1 with
          | some k => if k.onCores && s.usesEdge e.1 k edge then s.linkFault e.1 k else s
          | none => s) s
      else s
    let ts := (vget [] s.edgeErrors edge).filter (fun t => s.tide < t + secondTc) ++ [s.tide]
    let s := { s with edgeErrors := vset s.edgeErrors edge ts }
    if 16 ≤ ts.length && !vget false s.edgeDown edge then
      { s with edgeDown := vset s.edgeDown edge true }.harbourEvent 0x04
    else s)

/-! ### UALink stations (R38) -/

/-- Whether a target lies behind a station, for traffic of a die. -/
def State.behind (s : State) (station die : Nat) (t : Target) : Bool :=
  match t with
  | .pod _ p _ => s.station die p == some station
  | _ => false

/-- Whether a core has an access outstanding on a station. -/
def State.onStation (s : State) (station c : Nat) : Bool :=
  (s.core c).reqs.any (fun r => r.pieces.any (fun p => s.behind station (dieOf c) p.target))

/-- Whether a reduction record waits for a station. -/
def State.recordFor (s : State) (station : Nat) (m : Msg) : Bool := s.recordStation m == some station

/-- The near-memory requests outstanding on a station, each with its core and number: records that wait there,
and writes that it has sent and whose completion has not come. -/
def State.nearOn (s : State) (station : Nat) : List (Nat × Nat) :=
  (s.msgs.filter (s.recordFor station)).filterMap (fun m => m.core.map (fun c => (c, m.id))) ++
  (s.gathers.filter (fun g => s.station (dieOf g.core) g.home == some station)).flatMap
    (fun g => g.ids.map (fun i => (g.core, i))) ++
  (s.acks.filter (fun a => a.near && a.station == some station)).map (fun a => (a.core, a.msg))

/-- The tasks that near-memory requests belong to. -/
def State.nearTasks (s : State) (xs : List (Nat × Nat)) : List Nat :=
  (xs.flatMap (fun x => ((s.core x.1).near.filter (fun r => r.id == x.2)).filterMap NearReq.task)).eraseDups

/-- Commands of a core that move data over a station. -/
def State.commandsOn (s : State) (station c : Nat) : List Command :=
  (s.core c).cmds.filter (fun x => x.isMoving
    && s.commandTouches c x (fun p => s.behind station (dieOf c) p.target))

/-- Whether the pages of a copy lie behind a station (R87). -/
def State.copyOn (s : State) (station : Nat) (j : CopyJob) : Bool :=
  match s.graphs.find j.graph with
  | none => false
  | some g =>
    let on (va : Nat) : Bool := (runsOf va j.len).any (fun r =>
      match s.walk g.part g.die .load r.1 with
      | .ok l => s.behind station g.die (l.target r.1)
      | .error _ => false)
    on j.src || on j.dst

/-- The task of a core whose access is lost fails: one that runs, with the core that made the access (R38). -/
def State.loseTask (s : State) (c : Nat) : State :=
  match (s.core c).task, s.taskOf c with
  | some t, some k =>
    if k.state == .running then s.fail c 0x0E (BitVec.ofNat 32 (s.core c).vid) else s.failTask t 0x0E
  | _, _ => s

/-- A core's accesses that a test holds of are lost: nothing of them is performed or lands any more. -/
def Core.loseReqs (k : Core) (f : GReq → Bool) : Core :=
  (k.reqs.filter f).foldl (fun k r => (k.retire r).landNothing r.op) k

/-- STATION_DOWN (R38): what is outstanding on the station fails; later accesses use another. -/
def execStationDown (station : Nat) (s : State) : Host.Outcome State Fault Refusal :=
  s.whenReady (fun s =>
    if !s.stationUp.getLsbD station then s
    else
      let o := s
      let s := (List.range 256).foldl (fun s c =>
        (o.commandsOn station c).foldl (fun s x => s.failCommand c x 0x0E (transInfo 7 3 0)) s) s
      let s := (List.range 256).foldl (fun s c =>
        if o.onStation station c then
          (s.loseTask c).modCore c (fun k => k.loseReqs (fun r =>
            r.pieces.any (fun p => o.behind station (dieOf c) p.target)))
        else s) s
      let lost := o.nearOn station
      let s := (o.nearTasks lost).foldl (fun s t => s.failTask t 0x0E) s
      let s := lost.foldl (fun s x => s.modCore x.1 (fun k => k.ackNear x.2 none k.ackedAt)) s
      let s := { s with
        copies := s.copies.map (fun (j : CopyJob) =>
          if o.copyOn station j then { j with failed := some (0x0E, none) } else j)
        msgs := s.msgs.filter (fun m => !o.recordFor station m)
        gathers := s.gathers.filter (fun g => o.station (dieOf g.core) g.home != some station)
        acks := s.acks.filter (fun a => !(a.near && a.station == some station))
        stationUp := s.stationUp &&& ~~~((1 : BitVec 16) <<< station) }
      s.harbourEvent 0x04)

/-! ### The reduction inbox (R39 to R43) -/

/-- The words of a record that is sent (R40). -/
def redRecord (op addr : Nat) (part : Nat) (v : W32) : List Byte :=
  bytesOfWords [w64 (op * 2 ^ 60 + addr), w64 (part * 2 ^ 58 + Config.podIndex.toNat * 2 ^ 48 + v.toNat)]

/-- A null record. -/
def nullRecord : List Byte := bytesOfWords [w64 (15 * 2 ^ 60), 0]

/-- Whether a core's access that was issued before a record still has to leave through its station (R36). -/
def State.recordWaits (s : State) (m : Msg) : Bool :=
  match m.core, s.recordStation m with
  | some c, some st => (s.stationRequests (dieOf c) st).any (fun n => decide (n < m.id))
  | _, _ => false

/-- Records that have come to their station join those that wait there for the same home (R40). -/
def State.gatherReady (s : State) : State :=
  (s.msgs.filter (fun m => s.mayAccept m && !s.recordWaits m)).foldl (fun s m =>
    match m.core, m.remote, m.kind with
    | some c, some home, .red op off v =>
      let s := s.dropMsg m.id
      let rec_ := redRecord op off m.part v
      if s.gathers.any (fun g => g.core == c && g.home == home) then
        { s with gathers := s.gathers.map (fun (g : Gather) => if g.core = c ∧ g.home = home then
          { g with records := g.records ++ [rec_], ids := g.ids ++ [m.id] } else g) }
      else
        let (d, s) := s.later 0
        { s with gathers := s.gathers ++ [Gather.mk c home [rec_] [m.id]] }.due d (.inboxWriteSend c home) 0
    | _, _, _ => s) s

/-- The records of a gathering that may leave: those before which nothing was issued that has still to leave through
the station (R36). -/
def State.firstRecords (s : State) (st : Nat) (g : Gather) : Nat :=
  let others := s.stationRequests (dieOf g.core) st ++ s.stationRecords st (some (g.core, g.home))
  (g.ids.takeWhile (fun i => others.all (fun n => decide (i < n)))).length

/-- INBOX_WRITE_SEND (R40): a station sends one write of 64 B, or of 256 B with sixteen records waiting; its
completion acknowledges each record, which the home may have discarded (R41). What was issued before a record leaves
before it (R36). -/
def execInboxWriteSend (core home : Nat) (s : State) : Host.Outcome State Fault Refusal :=
  .next (match s.gathers.find? (fun g => g.core == core && g.home == home), s.station (dieOf core) home with
    | some g, some st =>
      let n := if 16 ≤ g.records.length then 16 else 4
      let may := s.firstRecords st g
      let sent := g.records.take (Nat.min n may)
      let data := (sent ++ List.replicate (n - sent.length) nullRecord).flatten
      if may = 0 then s.due (s.tide + 1) (.inboxWriteSend core home) 0
      else
      let (d, s) := s.later 1
      let s := (g.ids.take sent.length).foldl (fun (s : State) id => { s with
        fresh := s.fresh + 1
        acks := s.acks ++ [{
          id := s.fresh, core := core, task := (s.core core).task.getD 0, due := d, msg := id, reg := 0
          status := none, lost := Config.remoteRefuses s.fresh, station := some st }] }) s
      let rest : Gather := { g with records := g.records.drop sent.length, ids := g.ids.drop sent.length }
      let others := s.gathers.filter (fun x => !(x.core == core && x.home == home))
      let s := { s with outgoing := s.outgoing ++ [Outgoing.inboxWrite core home st data] }
      if rest.records.isEmpty then { s with gathers := others }
      else { s with gathers := others ++ [rest] }.due (s.tide + 1) (.inboxWriteSend core home) 0
    | _, _ => s)

/-- The partition that a sender is bound to (R42). -/
def State.boundTo (s : State) (src spart : Nat) : Option Nat :=
  let b := (Sparse.get 0 s.bindings (src * 32 + spart)).toNat
  if 128 ≤ b then some (b - 128) else none

/-- A device offset of a partition inside a range that takes remote traffic, as a DPA. -/
def State.remoteAt (s : State) (p off n : Nat) : Option Nat :=
  match packedAt (s.part p).ranges off with
  | some (dpa, left, true) => if n ≤ left && s.served dpa then some dpa else none
  | _ => none

/-- What a record of an inbox write comes to (R41): nothing, a fault, or a message to a base die. -/
inductive Incoming where
  | null
  | discard
  | accept (part dpa op : Nat) (v : W32)
  deriving DecidableEq, Repr

/-- The check of a record (R41). -/
def State.incoming (s : State) (w0 w1 : W64) : Incoming :=
  let op := wbits w0 63 60
  if op = 15 then if wbits w0 59 0 = 0 && w1 == 0 then .null else .discard
  else if 8 ≤ op || wbits w0 59 57 ≠ 0 || wbit w1 63 || wbits w1 47 32 ≠ 0 || wbits w0 56 0 % 4 ≠ 0 then
    .discard
  else
    match s.boundTo (wbits w1 57 48) (wbits w1 62 58) with
    | none => .discard
    | some p =>
      match s.remoteAt p (wbits w0 56 0) 4 with
      | none => .discard
      | some dpa => .accept p dpa op (BitVec.ofNat 32 (wbits w1 31 0))

/-- One record of an inbox write. -/
def State.takeRecord (s : State) (n : Nat) (rec_ : List Byte) : State :=
  let ws := words64 2 rec_
  match s.incoming (ws.getD 0 0) (ws.getD 1 0) with
  | .null => s
  | .discard => s.inboxFault n
  | .accept p dpa op v => { s with
      fresh := s.fresh + 1
      msgs := s.msgs ++ [{
        id := s.fresh, core := none, part := p, stack := s.stackOf dpa, kind := .red op dpa v
        ready := s.tide, remote := some n }] }

/-- INBOX_WRITE (R39, R41): its records are checked, and passed to base dies in order. -/
def execInboxWrite (addr : BitVec 48) (data : List Byte) (s : State) : Host.Outcome State Fault Refusal :=
  s.whenReady (fun s =>
    let len := data.length
    if (len ≠ 64 && len ≠ 256) || addr.toNat % len ≠ 0 then
      { s with replies := s.replies ++ [.ualinkError] }
    else
      let (n, s) := s.number
      let s := { s with inbox := s.inbox ++ [(n, false)] }
      ((chunksOf 16 (len / 16) data).foldl (fun s r => s.takeRecord n r) s).closeInbox n)

/-- INBOX_READ (R39): zeros. -/
def execInboxRead (_ : BitVec 48) (len : Nat) (s : State) : Host.Outcome State Fault Refusal :=
  s.whenReady (fun s => { s with replies := s.replies ++ [.ualinkData (List.replicate len 0)] })

/-- INBOX_ATOMIC (R39): an error. -/
def execInboxAtomic (_ : BitVec 48) (s : State) : Host.Outcome State Fault Refusal :=
  s.whenReady (fun s => { s with replies := s.replies ++ [.ualinkError] })

/-- A byte of the binding table written (R42). -/
def State.setBinding (s : State) (entry : Nat) (v : Byte) : State :=
  if v = 0 || (128 ≤ v.toNat && v.toNat < 160) then { s with bindings := s.bindings.set 0 entry v }
  else s.configError (0x20000 + entry)

/-- INBOX_BINDING_WRITE (R42). -/
def execInboxBindingWrite (entry : Nat) (v : Byte) (s : State) : Host.Outcome State Fault Refusal :=
  s.whenReady (fun s => s.setBinding entry v)

/-! ### Accesses from other packages (R42) -/

/-- The operation of an incoming atomic (log 8). -/
def rmwOf : RemoteOp → Option Rmw
  | .read _ => none
  | .write _ => none
  | .cas e n => some (.cas e n)
  | .atomic op w v =>
    match op.toNat with
    | 9 => some .rul
    | 10 => some .wul
    | 11 => some .rlk
    | 12 => some (.wlk (v != 0))
    | 13 => some .withdraw
    | 14 => some (.fill v)
    | 15 => some .take
    | o => some (.atom o w v)

/-- The bytes that an access covers. -/
def remoteSize : RemoteOp → Nat
  | .read n => n
  | .write d => d.length
  | .cas _ _ => 8
  | .atomic op w v => ((rmwOf (.atomic op w v)).map Rmw.size).getD 8

/-- An access of another package served at home memory; a read or an atomic of a line that cannot be read answers an
error (DESIGN CHOICE, log 59). -/
def State.serveRemote (s : State) (dpa : Nat) (op : RemoteOp) : Reply × State :=
  let die := dpa / 2 ^ 37
  match op with
  | .write d => (.ualinkOk, (s.storeTarget die (.device dpa) d).2)
  | _ =>
    match s.fetchTarget die (.device dpa) (remoteSize op) with
    | (.data bs, s) =>
      match rmwOf op with
      | none => (.ualinkData bs, s)
      | some x =>
        match (x.apply bs).new with
        | some new => (.ualinkData bs, (s.storeTarget die (.device dpa) new).2)
        | none => (.ualinkData bs, s)
    | (_, s) => (.ualinkError, s)

/-- Whether an access of another package waits for a bank that scans (R219). -/
def State.remoteBusy (s : State) (r : RemoteAccess) : Bool :=
  !s.scans.isEmpty && (((s.boundTo r.src.toNat r.spart.toNat).bind (fun p => s.remoteAt p r.addr (remoteSize r.op))).any
    (fun dpa => s.targetBusy (.device dpa) (remoteSize r.op)))

/-- REMOTE_ACCESS (R42): served inside a range of the bound partition that takes remote traffic, or
refused. -/
def execRemoteAccess (r : RemoteAccess) (s : State) : Host.Outcome State Fault Refusal :=
  s.whenReady (fun s =>
    match (s.boundTo r.src.toNat r.spart.toNat).bind (fun p => s.remoteAt p r.addr (remoteSize r.op)) with
    | none => { s with replies := s.replies ++ [.ualinkError] }
    | some dpa =>
      let (reply, s) := s.serveRemote dpa r.op
      { s with replies := s.replies ++ [reply] })

/-! ### Ultra Ethernet (R44) -/

/-- The core and command that a transfer belongs to. -/
def State.transferCommand (s : State) (id : Nat) : Option (Nat × Command) :=
  (List.range 256).findSome? (fun c => ((s.core c).command id).map (fun x => (c, x)))

/-- The remote pods of a copy's ends. -/
def State.copyPods (s : State) (j : CopyJob) : List Nat :=
  match s.graphs.find j.graph with
  | none => []
  | some g =>
    let pods (a : Access) (va : Nat) : List Nat := (runsOf va j.len).filterMap (fun r =>
      match s.walk g.part g.die a r.1 with
      | .ok l => Piece.remotePod ⟨r.1, l.target r.1, 0⟩
      | .error _ => none)
    (pods .command j.src ++ pods .commandStore j.dst).eraseDups

/-- The transfers that have been posted and are not complete: their numbers, which follow the order of posting, and
their connections. -/
def State.transfers (s : State) : List (Nat × List Nat) :=
  ((List.range 256).flatMap (fun c => (s.core c).cmds.map (fun x =>
    (x.id, (s.commandReach c x).filterMap Piece.remotePod)))) ++
  (s.copies.filter CopyJob.ether).map (fun j => (j.id, s.copyPods j))

/-- Whether a transfer waits for one that was posted before it on a connection in ordered mode (R44). -/
def State.transferWaits (s : State) (id : Nat) : Bool :=
  match s.transfers.find? (fun x => x.1 == id) with
  | none => false
  | some x => s.transfers.any (fun y => decide (y.1 < x.1) && y.2.any (fun p => Config.ordered p && x.2.contains p))

/-- ETHERNET_TRANSFER_COMPLETE (R44): every byte acknowledged, or retries exhausted. In ordered mode a transfer
completes only after those posted before it on its connection. CAUSE after exhausted retries is the model's (DESIGN
CHOICE, log 60). -/
def execEthernetTransferComplete (transfer : Nat) (delivered : Bool) (s : State) :
    Host.Outcome State Fault Refusal :=
  s.whenReady (fun s =>
    let s := { s with etherDone := s.etherDone.filter (fun x => x.1 != transfer) }
    if s.transferWaits transfer then { s with etherDone := s.etherDone ++ [(transfer, delivered)] }
    else
    match s.transferCommand transfer with
    | some (c, x) =>
      if !x.isMoving || !s.overEthernet c x then s
      else if delivered then s.modCore c (fun k => k.setCommand { x with
        state := .moving x.began (some s.tide), moves := { x.moves with since := s.tide } })
      else if s.recordBusy c x then s.modCore c (fun k => k.setCommand { x.stopped (some (0x0E, transInfo 7 3 0)) with
        moves := { x.moves with since := s.tide } })
      else s.failCommand c x 0x0E (transInfo 7 3 0)
    | none =>
      match s.copies.find? (fun j => j.id == transfer) with
      | none => s
      | some j =>
        if !j.ether then s
        else
          { s with
            copies := s.copies.map (fun (x : CopyJob) =>
              if x.id = j.id && !delivered then { x with failed := some (0x0E, none) } else x)
            now := .event (.copyNodeComplete j.id) 0 :: s.now })

/-- ETHERNET_PORT_DOWN (R44): the spray narrows to the ports that are up. -/
def execEthernetPortDown (port : Nat) (s : State) : Host.Outcome State Fault Refusal :=
  s.whenReady (fun s => { s with portUp := s.portUp &&& ~~~((1 : BitVec 8) <<< port) })

end Sys2Proof.Machine
end

