-- ==== Sys2Proof/Machine/Tasks.lean ====
section
/-!
DEFINITION. Tasks (spec/03, spec/05): work queues, task records and their checks (R54 to R57), gang shapes
and placements (R52, R56, R99, R103), kernel images (R98 to R100), completion records (R58 to R60), and the
restart header (R119).
-/

namespace Sys2Proof.Machine

/-! ### Queues, functions, home dies -/

/-- The key of a work queue: function and index. -/
def queueKey (vf q : Nat) : Nat := vf * 512 + q

def State.wq (s : State) (vf q : Nat) : WorkQueue := Sparse.get {} s.queues (queueKey vf q)

def State.setWq (s : State) (vf q : Nat) (x : WorkQueue) : State :=
  { s with queues := s.queues.set {} (queueKey vf q) x }

/-- The partition that a virtual function is bound to (R61). -/
def State.partOfVf (s : State) (vf : Nat) : Option Nat :=
  if vf = 0 then none else (List.range 32).find? (fun p => (s.part p).pvf.getLsbD (vf - 1))

/-- The home die of a partition (R101). -/
def State.homeDie (s : State) (p : Nat) : Option Nat :=
  (List.range 4).find? (fun d => s.diepres.getLsbD d && (s.part p).cohorts.any (fun c => c / 8 == d))

/-- A value that no rule states (log 15). -/
def State.unstated (s : State) : Nat × State :=
  ((Config.eventDetail s.fresh).toNat, { s with fresh := s.fresh + 1 })

/-! ### Gang shapes (R56) -/

def gangAnchor (w : W64) : Nat := wbits w 63 56
def gangDies (w : W64) : Nat := if gangAnchor w = 0xFF then 1 else wbits w 55 54 + 1
def gangRows (w : W64) : Nat := wbits w 53 51 + 1
def gangCols (w : W64) : Nat := wbits w 50 48 + 1
def gangPrio (w : W64) : Nat := wbits w 47 46
def gangPart (w : W64) : Nat := wbits w 45 41

/-- Cores of a gang. -/
def gangCores (w : W64) : Nat := gangDies w * gangRows w * gangCols w

/-- The virtual cores of a gang at an anchor, in gang order (R99), unless it leaves a die. -/
def virtualGang (w : W64) (a : Nat) : Option (List Nat) :=
  let d := a / 64
  let r := a / 8 % 8
  let c := a % 8
  if 4 < d + gangDies w || 8 < r + gangRows w || 8 < c + gangCols w then none
  else some ((List.range (gangDies w)).flatMap (fun i => (List.range (gangRows w)).flatMap (fun j =>
    (List.range (gangCols w)).map (fun n => (d + i) * 64 + (r + j) * 8 + (c + n)))))

/-- The physical cores of a gang of a partition at an anchor, if the partition holds them all. -/
def State.gangAt (s : State) (p : Nat) (w : W64) (a : Nat) : Option (List Nat) :=
  (virtualGang w a).bind (fun vs => vs.mapM (s.physical p))

/-- The placements of a gang in the order in which they are tried (R103): its anchor, or for ANCHOR 0xFF
every position on virtual die 0. -/
def State.positions (s : State) (p : Nat) (w : W64) : List (List Nat) :=
  (if gangAnchor w = 0xFF then List.range 64 else [gangAnchor w]).filterMap (s.gangAt p w)

/-- Whether every die and die-edge link that some cores need is present and up (R25, R34). -/
def State.reachable (s : State) (cores : List Nat) : Bool :=
  cores.all (fun c => s.diepres.getLsbD (dieOf c)) && (edgesOf cores).all (fun e => !vget false s.edgeDown e)

/-- The slip horizon and the gate delay of a placement (R130). -/
def horizonOf (cores : List Nat) : Nat × Nat :=
  let ds := (cores.map dieOf).eraseDups
  if ds.length ≤ 1 then (8, 16)
  else if ds.length = 2 && ds.foldl (· + ·) 0 ≠ 3 then (48, 56)
  else (92, 100)

/-- The crossing from a die to the farthest die of a placement (R30, R106). -/
def crossingOf (d : Nat) (cores : List Nat) : Nat :=
  cores.foldl (fun m c => Nat.max m (byDistance d (dieOf c) 0 40 84)) 0

/-- HMODE as gangs of a partition read it (R71). -/
def State.hmodeOf (s : State) (p : Nat) : W64 :=
  let k := s.part p
  w64 (k.hm.toNat + (if s.route then 16 else 0) + (if s.bremap then 32 else 0) + (if k.wq then 64 else 0))

def Task.prio (k : Task) : Nat := gangPrio (k.word 3)

/-! ### Checks at the take (R57) -/

/-- The detail of the first check that fails. -/
def firstDetail : List (Bool × Nat) → Option Nat
  | [] => none
  | (ok, d) :: rest => if ok then firstDetail rest else some d

/-- The checks of a record of a partition that need no memory. -/
def State.recordChecks (s : State) (p : Nat) (r : List W64) : List (Bool × Nat) :=
  let w (i : Nat) : W64 := r.getD i 0
  let krows := wbits (w 5) 6 0
  [(wbits (w 2) 4 1 == 0 && wbits (w 3) 39 32 == 0 && wbits (w 5) 63 7 == 0 && w 6 == 0 && w 7 == 0, 0x01),
   (wbits (w 0) 9 0 == 0 && wbits (w 1) 5 0 == 0, 0x02),
   (1 ≤ krows && krows ≤ 64, 0x03),
   (gangPart (w 3) == p, 0x04),
   (!(s.positions p (w 3)).isEmpty, 0x05),
   (!(gangAnchor (w 3) == 0xFF && wbits (w 3) 55 54 != 0), 0x06),
   (wbit (w 3) 40 == (wbits (w 3) 31 0 != 0), 0x07)]

/-! ### Translations held (R100) -/

/-- A leaf as a held translation. -/
def Leaf.entry (l : Leaf) : TlbEntry := ⟨0, l.va, l.size, l.tgt, l.kind, l.key, l.pod, l.frame, 0, false, l.part⟩

/-- The translations of a run of bytes, page by page. -/
def State.pagesFrom (s : State) (p die : Nat) (a : Access) (end_ : Nat) :
    Nat → Nat → Option (List TlbEntry)
  | 0, _ => some []
  | n + 1, va =>
    if end_ ≤ va then some []
    else if 2 ^ 57 ≤ va then none
    else
      match s.walk p die a va with
      | .error _ => none
      | .ok l => (s.pagesFrom p die a end_ n (l.va + l.size)).map (fun es => l.entry :: es)

def State.pagesOf (s : State) (p die : Nat) (a : Access) (va n : Nat) : Option (List TlbEntry) :=
  s.pagesFrom p die a (va + n) (n / 2 ^ 16 + 2) va

/-- Translations added to those held, or the detail that refuses the task. -/
def State.holdPages (s : State) (die : Nat) (k : Task) (a : Access) (va n detail : Nat) :
    Except Nat Task × State :=
  match s.pagesOf k.part die a va n with
  | some es => (.ok { k with pages := k.pages ++ es }, s)
  | none => (.error detail, s.countTables k.part ((runsOf va n).map Prod.fst))

/-- A read through the translations that a task holds; none where it gives no data. -/
def State.readHeld (s : State) (die : Nat) (k : Task) : List (Nat × Nat) → Option (List Byte) × State
  | [] => (some [], s)
  | (va, n) :: rest =>
    match k.held va with
    | none => (none, s)
    | some e =>
      match s.fetchTarget die (e.target va) n with
      | (.data bs, s) =>
        match s.readHeld die k rest with
        | (some more, s) => (some (bs ++ more), s)
        | r => r
      | (_, s) => (none, s)

/-! ### Kernel images (R98 to R100) -/

/-- NSTRM, PRELOAD of a kernel header. -/
def headerNstrm (h : List W64) : Nat := wbits (h.getD 0 0) 47 40
def headerPreload (h : List W64) : Nat := wbits (h.getD 0 0) 32 26

/-- The checks of a header and its stream map. -/
def imageChecks (r h : List W64) (map : List Byte) : List (Bool × Nat) :=
  let w (i : Nat) : W64 := h.getD i 0
  let krows := wbits (r.getD 5 0) 6 0
  let n := gangCores (r.getD 3 0)
  let ck := (w 1).toNat
  let pages := wbits (w 2) 31 0
  [(wbits (w 0) 55 48 == 1 && wbits (w 0) 25 0 == 0 && wbits (w 2) 63 32 == 0
      && (h.drop 3).all (· == 0), 0x20),
   (wbits (w 0) 39 33 == krows && 1 ≤ headerPreload h && headerPreload h ≤ krows, 0x21),
   (map.zipIdx.all (fun x => if x.2 < n then x.1.toNat ≤ headerNstrm h else x.1 == 0), 0x22),
   (ck % 4096 == 0 && (ck == 0) == (pages == 0), 0x23),
   (!(wbit (r.getD 3 0) 40 && ck != 0), 0x24)]

/-- A record that has passed its first checks, with the translations of KERNEL and LAUNCH, and the KIND of
its image (R78). -/
def State.openImage (s : State) (die : Nat) (k : Task) : Except Nat (Task × Nat) × State :=
  match s.holdPages die k .load (k.word 0).toNat 1024 0x08 with
  | (.error d, s) => (.error d, s)
  | (.ok k, s) =>
    match s.holdPages die k .load (k.word 1).toNat 64 0x08 with
    | (.error d, s) => (.error d, s)
    | (.ok k, s) =>
      match s.readHeld die k [((k.word 0).toNat, 64)] with
      | (none, s) => (.error 0x08, s)
      | (some bs, s) =>
        if !(s.positions k.part (k.word 3)).any s.reachable then (.error 0x09, s)
        else
          let h := words64 8 bs
          (.ok ({ k with header := h }, wbits (h.getD 0 0) 63 56), s)

/-- Everything of a kernel task that its take checks and translates (R57, R100). -/
def State.checkKernel (s : State) (die : Nat) (k : Task) : Except Nat Task × State :=
  match firstDetail (s.recordChecks k.part k.record) with
  | some d => (.error d, s)
  | none =>
    match s.openImage die k with
    | (.error d, s) => (.error d, s)
    | (.ok (k, kind), s) =>
      if kind ≠ 1 then (.error 0x0A, s)
      else
        match s.readHeld die k [((k.word 0).toNat + 64, 256)] with
        | (none, s) => (.error 0x08, s)
        | (some map, s) =>
          match firstDetail (imageChecks k.record k.header map) with
          | some d => (.error d, s)
          | none =>
            let rows := (headerNstrm k.header + 1) * wbits (k.word 5) 6 0
            match s.holdPages die { k with map := map } .load (k.word 0).toNat (1024 * (1 + rows)) 0x08 with
            | (.error d, s) => (.error d, s)
            | (.ok k, s) =>
              if k.ckaddr = 0 then (.ok k, s)
              else s.holdPages die k .store k.ckaddr (k.ckpages * 4096) 0x25

/-! ### Ready sets (R101, R102) -/

/-- The owner die of a task (R101). -/
def State.ownerOf (s : State) (p home : Nat) (w : W64) : Nat :=
  if gangAnchor w = 0xFF then home else ((s.physical p (gangAnchor w)).map dieOf).getD home

/-- Whether a die's ready set has room for a task of a partition (R102). A task holds its entry until its record is
written (DESIGN CHOICE, log 49: the spec says so of a pre-empted task only). -/
def State.readyRoom (s : State) (d p : Nat) : Bool :=
  decide (s.tasks.countP (fun e => e.2.owner == d && e.2.state != .done) < 1024)
    && decide (s.tasks.countP (fun e => e.2.owner == d && e.2.state != .done && e.2.part == p) < 256)

/-- A checked task enters its owner die's ready set; with a checkpoint area, the restart header is cleared
but for FIRST (R119). -/
def State.enterReady (s : State) (k : Task) : State :=
  let (t, s) := s.number
  let s := if k.ckaddr = 0 then s
    else (s.writeArea t k 0 (List.replicate 8 0)).writeArea t k 16 (List.replicate 48 0)
  s.setTask t { k with state := .ready, readyTide := s.tide }

/-- A task that a check has refused: it ends with that detail (R57). -/
def State.refuseTask (s : State) (k : Task) (detail : Nat) : State :=
  let (t, s) := s.number
  { s.setTask t { k with state := .ending, verdict := some ⟨0x03, 0, BitVec.ofNat 32 detail⟩ } with
    now := .event (.taskComplete t) 0 :: s.now }

/-! ### Completion records (R57, R58, R60) -/

/-- Pieces of a record whose function is in a reset: none goes to host memory (R64). -/
def dropHost (held : Bool) (ps : List (Piece × List Byte)) : List (Piece × List Byte) :=
  ps.filter (fun x => !(held && (match x.1.target with
    | .host _ => true
    | _ => false)))

/-- A completion record written at a COMPL word of a function (R57, R64): to host memory unless the
function is in a reset, or to a virtual address, where a failing translation places an event instead. -/
def State.writeCompletion (s : State) (vf p die : Nat) (compl tag : W64) (bs : List Byte) : State :=
  let addr := compl.toNat / 32 * 32
  if wbit compl 0 then
    match s.hardWrite p die .store (pageCuts addr bs) with
    | .ok ps => s.storeParts die (dropHost (s.func vf).flr ps)
    | .error _ =>
      let (x, s) := (s.countTables p [addr]).unstated
      s.event vf 0x08 x (w64 addr) tag
  else if (s.func vf).flr then s
  else s.writeHost addr bs

/-- Whether a completion record is written: its address translates (R57), and no function-level reset holds it back
(R64). -/
def State.recordLands (s : State) (vf p die : Nat) (compl : W64) : Bool :=
  if wbit compl 0 then
    match s.hardWrite p die .store (pageCuts (compl.toNat / 32 * 32) (List.replicate 32 0)) with
    | .ok ps => !((s.func vf).flr && ps.any (fun x => match x.1.target with
        | .host _ => true
        | _ => false))
    | .error _ => false
  else !(s.func vf).flr

/-- Whether a completion record waits for a bank that scans (R219). -/
def State.completionBusy (s : State) (p die : Nat) (compl : W64) : Bool :=
  wbit compl 0 && s.virtualBusy p die .store (compl.toNat / 32 * 32) 32

/-- The MSI-X message that follows the completion of a task from a queue (R54, R60). -/
def State.queueInterrupt (s : State) (vf q : Nat) : State :=
  let x := s.wq vf q
  if x.irq && !(s.func vf).flr then s.interrupt vf x.vec else s

/-- A task's status, cause and detail (R58, R59). -/
def Task.outcome (k : Task) : Verdict :=
  k.verdict.getD ⟨if k.ncorr = 0 then 0x00 else 0x01, 0, 0⟩

/-- Whether a task writes a completion record: a node with COMPL 0 writes none (R83). -/
def Task.recorded (k : Task) : Bool := !(k.node.isSome && k.word 2 == 0)

/-- The record of a task that has ended. START of a task that never started, and END of one that no core
ran, are not stated. -/
def State.taskRecord (s : State) (k : Task) : State :=
  if !k.recorded then s
  else
    let (x, s) := s.unstated
    let (y, s) := s.unstated
    let v := k.outcome
    let start := if k.start = 0 then x else k.start
    let end_ := k.endTide.getD y
    let s := s.writeCompletion k.vf k.part k.owner (k.word 2) (k.word 4)
      (recordBytes v.status.toNat v.cause.toNat k.ncorr v.detail.toNat (k.word 4) start end_)
    if k.node.isSome then s else s.queueInterrupt k.vf k.queue

/-- A task's successor leases let go, with the rows that are on their way, unless it keeps its placement: a place in
another gang shape has another stream (R99, R110). -/
def State.dropLeases (s : State) (t : Nat) (k : Task) (keep : List Nat) : State :=
  if keep = k.cores then s
  else
    let mine (c row : Nat) : Bool := k.cores.contains c && (s.core c).lease.any (fun e =>
      e.2.task == t && e.2.row == row && e.2.state == .loading)
    (s.modCores k.cores (fun c =>
      { c with lease := c.lease.filter (fun e => e.2.task != t), ahead := 0 })).cancel (fun d => match d.ev with
        | .rowLoadComplete c row => mine c row
        | _ => false)

/-- Whether a task awaits its restart after a pre-emption (R59, R63), a reservation of it included. -/
def Task.awaitsRestart (k : Task) : Bool := k.state == .parked || (k.state == .reserved && k.preempts != 0)

/-- A task that has no cores ends with a status (R63, R64, R122); its successor leases go. -/
def State.endWaiting (s : State) (t status : Nat) : State :=
  match s.task? t with
  | none => s
  | some k =>
    { (s.dropLeases t k []).setTask t { k with
        state := .ending, verdict := some ⟨BitVec.ofNat 8 status, 0, 0⟩, cores := [] } with
      now := s.now ++ [.event (.taskComplete t) 0] }

end Sys2Proof.Machine
end

