-- ==== Sys2Proof/Machine/Graphs.lean ====
section
/-!
DEFINITION. The command processor (spec/04): graph images and their validation (R79 to R84), the nodes of a
graph (R85 to R93), failures (R94), the completion of node tasks, and of graphs. The times between the
start and the finish of a control node are free (log 3).
-/

namespace Sys2Proof.Machine

/-! ### Node records (R82, R83) -/

def nodeType (ws : List W64) : Nat := wbits (ws.getD 0 0) 63 56
def nodeMode (ws : List W64) (i : Nat) : Bool := wbit (ws.getD 0 0) (48 + i)
def nodeNext (ws : List W64) : Nat := wbits (ws.getD 0 0) 47 32
def nodeAlt (ws : List W64) : Nat := wbits (ws.getD 0 0) 31 16

/-- The end of a graph as a successor. -/
def graphEnd : Nat := 0xFFFF

/-- Whether the words of a record from `i` on are zero. -/
def zeroFrom (ws : List W64) (i : Nat) : Bool := (ws.drop i).all (· == 0)

/-- Whether the reserved fields of a node are zero. -/
def nodeReserved (ws : List W64) : Bool :=
  let w (i : Nat) : W64 := ws.getD i 0
  let mode := wbits (w 0) 55 48
  wbits (w 0) 15 0 == 0 && (nodeType ws == 5 || nodeType ws == 6 || nodeAlt ws == 0) &&
  (match nodeType ws with
    | 1 => mode < 2 && wbits (w 3) 47 41 == 0 && wbits (w 3) 39 32 == 0 && wbits (w 5) 4 1 == 0
        && wbits (w 6) 63 7 == 0 && w 7 == 0
    | 2 => mode < 2 && wbits (w 5) 4 1 == 0 && zeroFrom ws 6
    | 3 => mode < 8 && (nodeMode ws 1 || wbits (w 2) 63 32 == 0) && zeroFrom ws 3
    | 4 => mode < 8 && wbits (w 2) 63 32 == 0 && wbits (w 3) 63 32 == 0 && zeroFrom ws 4
    | 5 => mode == 0 && zeroFrom ws 2
    | 6 => mode < 4 && zeroFrom ws 4
    | _ => mode == 0 && zeroFrom ws 1)

/-- Whether a node's successors are in range (R84). -/
def nodeSuccessors (n : Nat) (ws : List W64) : Bool :=
  (nodeNext ws < n || nodeNext ws == graphEnd) &&
  (match nodeType ws with
    | 5 => nodeAlt ws < n || nodeAlt ws == graphEnd
    | 6 => nodeAlt ws < n
    | _ => true)

/-- Whether a node's addresses, LEN and MAXTRIP are good. -/
def nodeAddresses (ws : List W64) : Bool :=
  let v (i : Nat) : Nat := (ws.getD i 0).toNat
  match nodeType ws with
  | 1 => v 1 % 1024 == 0 && v 2 % 64 == 0
  | 2 => 1 ≤ v 3 && v 3 ≤ 2 ^ 40
  | 3 => v 1 % (if nodeMode ws 1 then 8 else 4) == 0
  | 4 => v 1 % 4 == 0
  | 5 => v 1 % 4 == 0
  | 6 => v 1 % 4 == 0 && 1 ≤ v 2 && v 2 < 2 ^ 32 && v 3 % 4 == 0
  | _ => true

/-- The checks of a node among `n` (R79). -/
def nodeChecks (n : Nat) (ws : List W64) : List (Bool × Nat) :=
  [(1 ≤ nodeType ws && nodeType ws ≤ 7, 0x12), (nodeReserved ws, 0x13), (nodeSuccessors n ws, 0x14),
   (nodeAddresses ws, 0x15)]

/-- NODES and ENTRY of a graph header (R81). -/
def graphNodes (h : List W64) : Nat := wbits (h.getD 0 0) 31 16
def graphEntry (h : List W64) : Nat := wbits (h.getD 0 0) 15 0

/-- Whether a graph header is good (R79). -/
def graphHeader (h : List W64) : Bool :=
  wbits (h.getD 0 0) 55 48 == 1 && wbits (h.getD 0 0) 47 32 == 0 && zeroFrom h 1 && 1 ≤ graphNodes h
    && graphNodes h ≤ 4096 && graphEntry h < graphNodes h

/-- DETAIL of a graph for a node and a code (R84). -/
def graphDetail (node code : Nat) : Nat := node * 2 ^ 16 + code

/-- The shape of a graph task (R79). -/
def graphShape (r : List W64) : Bool :=
  let w := r.getD 3 0
  wbits w 55 48 == 0 && wbits (r.getD 5 0) 6 0 == 1 && !wbit w 40 && wbits w 31 0 == 0

/-- The first failing node's DETAIL. -/
def firstBadNode (n : Nat) (nodes : List (List W64)) : Option Nat :=
  nodes.zipIdx.findSome? (fun x => (firstDetail (nodeChecks n x.1)).map (graphDetail x.2))

/-- The validation of a graph task's record, header and nodes (R84): the DETAIL of what fails. The header comes
before the shape and the shape before the nodes, a node's codes come in ascending order, and a failing shape gives
0xFFFF as a header does (DESIGN CHOICE, log 49). -/
def graphFault (r h : List W64) (nodes : List (List W64)) : Option Nat :=
  if !graphHeader h then some (graphDetail graphEnd 0x10)
  else if !graphShape r then some (graphDetail graphEnd 0x11)
  else firstBadNode (graphNodes h) nodes

/-! ### Graphs -/

def State.graph? (s : State) (g : Nat) : Option Graph := s.graphs.find g

def State.setGraph (s : State) (g : Nat) (x : Graph) : State := { s with graphs := s.graphs.put g x }

def State.modGraph (s : State) (g : Nat) (f : Graph → Graph) : State :=
  match s.graph? g with
  | some x => s.setGraph g (f x)
  | none => s

/-- The words of a node. -/
def Graph.words (g : Graph) (i : Nat) : List W64 := g.nodes.getD i []

/-- Control goes to a successor, which becomes ready at a tide (R85). -/
def Graph.goTo (g : Graph) (next t : Nat) : Graph :=
  if g.state ≠ .running then { g with waiting := false, leaving := none }
  else { g with at_ := next, waiting := false, leaving := none, since := t }

/-- The records of a die that are free (R80). -/
def State.graphRoom (s : State) (die n : Nat) : Bool :=
  let gs := (s.graphs.map Prod.snd).filter (fun g => g.die == die)
  decide (gs.length < 64) && decide ((gs.map Graph.records).sum + n ≤ 8192)

/-- A control node finishes, and control goes on some tc later. -/
def State.control (s : State) (g next : Nat) : State :=
  let (t, s) := s.later 1
  s.modGraph g (fun x => x.goTo next t)

/-- A failure recorded (R94): the first stays, and no further node becomes ready. A wait node that is under
way waits no more. -/
def Graph.failed (g : Graph) (i cause detail : Nat) : Graph :=
  { g with
    fail := some (g.fail.getD (i, cause, detail))
    waiting := g.waiting && nodeType (g.words g.at_) != 4
    state := .draining }

/-- A node that has ended, with its status, cause and detail, and the corrected errors of its record, if it has
one: a node without a record carries no CORRECTED (R93). -/
def State.nodeDone (s : State) (g i status cause detail ncorr : Nat) : State :=
  s.modGraph g (fun x =>
    let x := { x with corrected := x.corrected || (status == 1 && ncorr != 0), ncorr := Nat.min 255 (x.ncorr + ncorr) }
    let x := if status < 2 then x else x.failed i cause detail
    if x.nowait.contains i then { x with nowait := x.nowait.erase i }
    else x.goTo (nodeNext (x.words i)) (s.tide + 1))

/-- A control node that ends its graph (R90, R92): CAUSE and detail. -/
def State.failNode (s : State) (g cause detail : Nat) : State :=
  s.modGraph g (fun x => { x.failed x.at_ cause detail with waiting := false })

/-! ### Reads and writes of nodes -/

/-- What stops an access of a node: its cause, and the detail where one is stated. -/
def nodeFault : WalkStop → Nat × Option Nat
  | .fault _ _ => (0x0E, some 0x19)
  | .unread _ => (0x19, none)

/-- The walk of an address of a node. -/
def State.nodeWalk (s : State) (g : Graph) (a : Access) (va : Nat) : Except WalkStop Leaf :=
  if 2 ^ 57 ≤ va then .error (.fault 0 0) else s.walk g.part g.die a va

/-- The bytes at an address for a node (R90). -/
def State.nodeRead (s : State) (g : Graph) (va n : Nat) (a : Access) :
    Except (Nat × Option Nat) (List Byte × Nat) × State :=
  match s.nodeWalk g a va with
  | .error w => (.error (nodeFault w), s.countTables g.part [va])
  | .ok l =>
    let t := l.target va
    match s.fetchTarget g.die t n with
    | (.data bs, s') => (.ok (bs, s.targetCorrected t n), s')
    | (f, s') => (.error (f.cause, none), s')

/-- Bytes stored at an address for a node: what stopped it. -/
def State.nodeWrite (s : State) (g : Graph) (va : Nat) (bs : List Byte) (a : Access) :
    Option (Nat × Option Nat) × State :=
  match s.nodeWalk g a va with
  | .error w => (some (nodeFault w), s.countTables g.part [va])
  | .ok l =>
    if !l.kind.admits a then (some (0x0F, none), s)
    else
      match s.storeTarget g.die (l.target va) bs with
      | (true, s) => (none, s)
      | (false, s) => (some (0x0E, none), s)

/-- A stated detail, or one that no rule states (log 15). -/
def State.detailOf (s : State) (d : Option Nat) : Nat × State :=
  match d with
  | some x => (x, s)
  | none =>
    let (x, s) := s.unstated
    (x % 2 ^ 16, s)

/-- The node under way fails for an access. -/
def State.failAccess (s : State) (g : Nat) (f : Nat × Option Nat) : State :=
  let (d, s) := s.detailOf f.2
  s.failNode g f.1 d

/-! ### Kernel nodes (R86) -/

/-- The task record of a kernel node. -/
def nodeRecord (g : Graph) (ws : List W64) : List W64 :=
  let w (i : Nat) : W64 := ws.getD i 0
  let w3 := setBits (setBits (w 3) 47 46 (gangPrio (g.record.getD 3 0))) 45 41 (gangPart (g.record.getD 3 0))
  [w 1, w 2, w 5, w3, w 4, w 6, 0, 0]

/-- A node that starts (R85): outstanding with NOWAIT, else under way. -/
def Graph.start (g : Graph) (nowait : Bool) : Graph :=
  if nowait then { g with nowait := g.nowait ++ [g.at_] } else { g with waiting := true }

/-- The owner die of a kernel node's task. -/
def State.nodeOwner (s : State) (g : Graph) : Nat :=
  s.ownerOf g.part ((s.homeDie g.part).getD 0) ((g.words g.at_).getD 3 0)

/-- Whether an access of a node waits for a bank that scans (R219): of a kernel node, the header and the map of its
image; of a loop node its predicate, and its count once it has been left. A wait node reads when it can, and the bytes
of a copy are awaited at its end. -/
def State.nodeBusy (s : State) (g : Graph) : Bool :=
  let ws := g.words g.at_
  let busy (a : Access) (i n : Nat) : Bool := s.virtualBusy g.part g.die a (ws.getD i 0).toNat n
  match nodeType ws with
  | 1 => busy .load 1 320
  | 3 => busy .store 1 (if nodeMode ws 1 then 8 else 4)
  | 5 => busy .load 1 4
  | 6 => if g.leaving.isSome then busy .store 3 4 else busy .load 1 4
  | _ => false

/-- Whether the node that is ready may start (R85, R86, R93, R219). -/
def State.nodeStarts (s : State) (g : Graph) : Bool :=
  let ws := g.words g.at_
  g.state == .running && !g.waiting && g.since ≤ s.tide && g.at_ != graphEnd && !s.nodeBusy g &&
  (match nodeType ws with
    | 1 => (!nodeMode ws 0 || decide (g.nowait.length < 32)) && s.readyRoom (s.nodeOwner g) g.part
    | 2 => !nodeMode ws 0 || decide (g.nowait.length < 32)
    | 7 => g.nowait.isEmpty
    | _ => true)

/-- The step of a node. -/
def nodeEvent (graph type : Nat) : Instr :=
  match type with
  | 1 => .kernelNode graph
  | 2 => .copyNode graph
  | 3 => .signalNode graph
  | 4 => .waitNode graph
  | 5 => .conditionalNode graph
  | 6 => .loopNode graph
  | _ => .joinNode graph

/-- A node that does not wait for its task or its copy hands control on (R85): the next node is ready at once,
and starts in the same tide (R90), unless it is a kernel node, of which one starts in a tide. -/
def State.handOn (s : State) (graph next : Nat) : State :=
  let s := s.modGraph graph (fun x => x.goTo next s.tide)
  match s.graph? graph with
  | none => s
  | some g =>
    if nodeType (g.words g.at_) != 1 && s.nodeStarts g then
      { s with now := .event (nodeEvent graph (nodeType (g.words g.at_))) 0 :: s.now }
    else s

/-- KERNEL_NODE (R86). A task that its checks refuse ends at once, and its node with it: control does not go on (R85,
R94). -/
def execKernelNode (graph : Nat) (s : State) : Host.Outcome State Fault Refusal :=
  .next (match s.graph? graph with
    | none => s
    | some g =>
      let ws := g.words g.at_
      let nowait := nodeMode ws 0
      let k : Task := { record := nodeRecord g ws, vf := g.vf, queue := g.queue, part := g.part,
                        node := some (graph, g.at_) }
      let home := (s.homeDie g.part).getD 0
      let k := { k with owner := s.ownerOf g.part home (k.word 3) }
      let s := s.setGraph graph (g.start nowait)
      match s.checkKernel home k with
      | (.ok k, s) => if nowait then (s.enterReady k).handOn graph (nodeNext ws) else s.enterReady k
      | (.error d, s) => s.refuseTask k d)

/-! ### Copy nodes (R87) -/

/-- The pieces of a copy, cut where either range meets a 64 KiB boundary: offset and length. -/
def copyCuts (src dst len : Nat) : Nat → Nat → List (Nat × Nat)
  | 0, _ => []
  | n + 1, off =>
    if len ≤ off then []
    else
      let k := Nat.min (len - off) (Nat.min (2 ^ 16 - (src + off) % 2 ^ 16) (2 ^ 16 - (dst + off) % 2 ^ 16))
      (off, k) :: copyCuts src dst len n (off + k)

/-- COPY_NODE (R87): a copy begins; overlapping ranges end it. -/
def execCopyNode (graph : Nat) (s : State) : Host.Outcome State Fault Refusal :=
  .next (match s.graph? graph with
    | none => s
    | some g =>
      let ws := g.words g.at_
      let v (i : Nat) : Nat := (ws.getD i 0).toNat
      let nowait := nodeMode ws 0
      let overlaps := decide (v 1 < v 2 + v 3) && decide (v 2 < v 1 + v 3)
      let remote (a : Access) (va : Nat) : Bool := match s.walk g.part g.die a va with
        | .ok l => l.tgt == 3
        | .error _ => false
      let ether := !overlaps && (copyCuts (v 1) (v 2) (v 3) (v 3 / 2 ^ 15 + 4) 0).any (fun x =>
        remote .command (v 1 + x.1) || remote .commandStore (v 2 + x.1))
      let (id, s) := s.number
      let (d, s) := s.later 1
      let job : CopyJob :=
        { id := id, graph := graph, node := g.at_, src := v 1, dst := v 2, len := v 3, start := s.tide,
          ether := ether, failed := if overlaps then some (0, some 0x16) else none }
      let s := { s.setGraph graph (g.start nowait) with copies := s.copies ++ [job] }
      let s := if ether then s else s.due d (.copyNodeComplete id) 0
      if nowait then s.handOn graph (nodeNext ws) else s)

/-- The bytes of a copy moved piece by piece: the corrected errors met, and what stopped it. -/
def State.copyPieces (s : State) (g : Graph) (j : CopyJob) :
    List (Nat × Nat) → Nat → (Nat × Option (Nat × Option Nat)) × State
  | [], fixed => ((fixed, none), s)
  | (off, n) :: rest, fixed =>
    match s.nodeRead g (j.src + off) n .command with
    | (.error f, s) => ((fixed, some f), s)
    | (.ok (bs, more), s) =>
      match s.nodeWrite g (j.dst + off) bs .commandStore with
      | (some f, s) => ((fixed + more, some f), s)
      | (none, s) => s.copyPieces g j rest (fixed + more)

/-- The end of a copy: its record, and its node's end. -/
def State.endCopy (s : State) (g : Graph) (j : CopyJob) (fixed : Nat) (f : Option (Nat × Option Nat)) :
    State :=
  let (d, s) := match f with
    | some x => s.detailOf x.2
    | none => (0, s)
  let cause := (f.map Prod.fst).getD 0
  let status := if f.isSome then 3 else if fixed = 0 then 0 else 1
  let ws := g.words j.node
  let recorded := ws.getD 5 0 != 0 && s.recordLands g.vf g.part g.die (ws.getD 5 0)
  let s := if ws.getD 5 0 != 0 then s.writeCompletion g.vf g.part g.die (ws.getD 5 0) (ws.getD 4 0)
      (recordBytes status cause fixed d (ws.getD 4 0) j.start s.tide) else s
  { s with copies := s.copies.filter (fun x => x.id != j.id) }.nodeDone j.graph j.node status cause
    (if recorded then 0 else d) (if recorded then Nat.min 255 fixed else 0)

/-- Whether a copy waits for a bank that scans (R219): for its bytes, or its record. -/
def State.copyBusy (s : State) (g : Graph) (j : CopyJob) : Bool :=
  !s.scans.isEmpty && ((j.failed.isNone && (copyCuts j.src j.dst j.len (j.len / 2 ^ 15 + 4) 0).any (fun x =>
      s.virtualBusy g.part g.die .command (j.src + x.1) x.2 ||
      s.virtualBusy g.part g.die .commandStore (j.dst + x.1) x.2))
    || s.completionBusy g.part g.die ((g.words j.node).getD 5 0))

/-- COPY_NODE_COMPLETE (R87). -/
def execCopyNodeComplete (copy : Nat) (s : State) : Host.Outcome State Fault Refusal :=
  .next (match s.copies.find? (fun j => j.id == copy) with
    | none => s
    | some j =>
      match s.graph? j.graph with
      | none => { s with copies := s.copies.filter (fun x => x.id != copy) }
      | some g =>
        if s.copyBusy g j then s.due (s.tide + 1) (.copyNodeComplete copy) 0 else
        match j.failed with
        | some f => s.endCopy g j 0 (some f)
        | none =>
          match s.copyPieces g j (copyCuts j.src j.dst j.len (j.len / 2 ^ 15 + 4) 0) 0 with
          | ((fixed, f), s) => s.endCopy g j fixed f)

/-! ### Control nodes (R88 to R93) -/

/-- SIGNAL_NODE (R88): the nodes that have completed have performed their writes. -/
def execSignalNode (graph : Nat) (s : State) : Host.Outcome State Fault Refusal :=
  .next (match s.graph? graph with
    | none => s
    | some g =>
      let ws := g.words g.at_
      let n := if nodeMode ws 1 then 8 else 4
      let va := (ws.getD 1 0).toNat
      let v := (ws.getD 2 0).toNat
      let put (s : State) (v : Nat) : State :=
        match s.nodeWrite g va (bytesOfNat n v) .store with
        | (some f, s) => s.failAccess graph f
        | (none, s) => s.control graph (nodeNext ws)
      if nodeMode ws 0 then
        match s.nodeRead g va n .store with
        | (.error f, s) => s.failAccess graph f
        | (.ok (bs, _), s) => put s (natOfBytes bs + v)
      else put s v)

/-- The comparison of a wait node. -/
def waitHolds (ws : List W64) (x : Nat) : Bool :=
  let v := wbits (ws.getD 2 0) 31 0
  match nodeMode ws 1, nodeMode ws 0 with
  | false, false => x == v
  | false, true => x != v
  | true, false => v ≤ x
  | true, true => x < v

/-- A read of a wait node: it completes, or reads again within 256 tc, or once its bank may have ended a scan
(R219). -/
def State.waitRead (s : State) (graph : Nat) (g : Graph) : State :=
  let ws := g.words g.at_
  if s.virtualBusy g.part g.die .load (ws.getD 1 0).toNat 4 then
    (s.modGraph graph (fun x => { x with waiting := true })).due (s.tide + 1) (.waitNodeReread graph) 0
  else
  match s.nodeRead g (ws.getD 1 0).toNat 4 .load with
  | (.error f, s) => s.failAccess graph f
  | (.ok (bs, _), s) =>
    if waitHolds ws (natOfBytes bs) then s.control graph (nodeNext ws)
    else
      let t := s.tide + 1 + Config.latency s.fresh % 256
      ({ s with fresh := s.fresh + 1 }.modGraph graph (fun x => { x with waiting := true })).due t
        (.waitNodeReread graph) 0

/-- WAIT_NODE (R89). -/
def execWaitNode (graph : Nat) (s : State) : Host.Outcome State Fault Refusal :=
  .next (match s.graph? graph with
    | none => s
    | some g =>
      let units := wbits ((g.words g.at_).getD 3 0) 31 0
      let s := if units = 0 then s else s.due (g.since + units * 2 ^ 16) (.waitNodeTimeout graph) 0
      s.waitRead graph g)

/-- Whether a graph stands at a wait node that has not completed. -/
def Graph.waits (g : Graph) : Bool :=
  g.state == .running && g.waiting && nodeType (g.words g.at_) == 4

/-- WAIT_NODE_REREAD (R89). -/
def execWaitNodeReread (graph : Nat) (s : State) : Host.Outcome State Fault Refusal :=
  .next (match s.graph? graph with
    | none => s
    | some g => if g.waits then s.waitRead graph g else s)

/-- WAIT_NODE_TIMEOUT (R89). -/
def execWaitNodeTimeout (graph : Nat) (s : State) : Host.Outcome State Fault Refusal :=
  .next (match s.graph? graph with
    | none => s
    | some g =>
      if g.waits && g.since + wbits ((g.words g.at_).getD 3 0) 31 0 * 2 ^ 16 == s.tide then
        s.failAccess graph (0x1B, none)
      else s)

/-- CONDITIONAL_NODE (R91). -/
def execConditionalNode (graph : Nat) (s : State) : Host.Outcome State Fault Refusal :=
  .next (match s.graph? graph with
    | none => s
    | some g =>
      let ws := g.words g.at_
      match s.nodeRead g (ws.getD 1 0).toNat 4 .load with
      | (.error f, s) => s.failAccess graph f
      | (.ok (bs, _), s) => s.control graph (if natOfBytes bs = 0 then nodeAlt ws else nodeNext ws))

/-- A loop node enters its body with a trip count. -/
def State.enterBody (s : State) (graph : Nat) (g : Graph) (count : Nat) : State :=
  (s.modGraph graph (fun x => { x with counts := x.counts.set 0 g.at_ count })).control graph
    (nodeAlt (g.words g.at_))

/-- A loop node is left (R92), once its count can be stored; its predicate is not read again (R90). -/
def State.leaveLoop (s : State) (graph : Nat) (g : Graph) (count : Nat) : State :=
  let ws := g.words g.at_
  let out (s : State) : State :=
    (s.modGraph graph (fun x => { x with counts := x.counts.set 0 g.at_ 0 })).control graph (nodeNext ws)
  if ws.getD 3 0 = 0 then out s
  else if s.virtualBusy g.part g.die .store (ws.getD 3 0).toNat 4 then
    s.modGraph graph (fun x => { x with leaving := some count })
  else
    match s.nodeWrite g (ws.getD 3 0).toNat (bytesOfNat 4 count) .store with
    | (some f, s) => s.failAccess graph f
    | (none, s) => out s

/-- LOOP_NODE (R92). -/
def execLoopNode (graph : Nat) (s : State) : Host.Outcome State Fault Refusal :=
  .next (match s.graph? graph with
    | none => s
    | some g =>
      let ws := g.words g.at_
      let count := Sparse.get 0 g.counts g.at_
      if let some n := g.leaving then s.leaveLoop graph g n
      else if count = 0 && nodeMode ws 0 then s.enterBody graph g 1
      else
        match s.nodeRead g (ws.getD 1 0).toNat 4 .load with
        | (.error f, s) => s.failAccess graph f
        | (.ok (bs, _), s) =>
          let p := natOfBytes bs
          if p ≠ 0 && count < (ws.getD 2 0).toNat then s.enterBody graph g (count + 1)
          else if p ≠ 0 && nodeMode ws 1 then s.failNode graph 0 0x17
          else s.leaveLoop graph g count)

/-- JOIN_NODE (R93): every outstanding NOWAIT node has completed. -/
def execJoinNode (graph : Nat) (s : State) : Host.Outcome State Fault Refusal :=
  .next (match s.graph? graph with
    | none => s
    | some g => if g.nowait.isEmpty then s.control graph (nodeNext (g.words g.at_)) else s)

/-! ### Completion (R93, R95) -/

/-- A graph's status, cause and detail. -/
def Graph.outcome (g : Graph) : Nat × Nat × Nat :=
  if g.aborted then (7, 0, 0)
  else
    match g.fail with
    | some (i, cause, detail) => (3, cause, graphDetail i detail)
    | none => (if g.corrected then 1 else 0, 0, 0)

/-- GRAPH_COMPLETE (R93), once the record's bank does not scan (R219). -/
def execGraphComplete (graph : Nat) (s : State) : Host.Outcome State Fault Refusal :=
  .next (match s.graph? graph with
    | none => s
    | some g =>
      if s.completionBusy g.part g.die (g.record.getD 2 0) then s else
      let o := g.outcome
      let s := s.writeCompletion g.vf g.part g.die (g.record.getD 2 0) (g.record.getD 4 0)
        (recordBytes o.1 o.2.1 g.ncorr o.2.2 (g.record.getD 4 0) g.taken s.tide)
      { s with graphs := s.graphs.erase graph }.queueInterrupt g.vf g.queue)

/-- Whether a graph's record is due: control has reached the end, or a node has failed, and nothing is
outstanding. -/
def Graph.over (g : Graph) (tide : Nat) : Bool :=
  (g.state == .draining || (g.at_ == graphEnd && g.since ≤ tide)) && g.nowait.isEmpty && !g.waiting

/-- TASK_COMPLETE (R60), once the record's bank does not scan (R219): the record, the message, the end of the
task's reservation, and the end of its node, whose corrected errors count where the record is written (R93). -/
def execTaskComplete (task : Nat) (s : State) : Host.Outcome State Fault Refusal :=
  .next (match s.task? task with
    | none => s
    | some k =>
      if k.recorded && s.completionBusy k.part k.owner (k.word 2) then s.due (s.tide + 1) (.taskComplete task) 0 else
      let lands := k.recorded && s.recordLands k.vf k.part k.owner (k.word 2)
      let s := s.taskRecord k
      let s := { s with
        tasks := s.tasks.erase task
        dies := s.dies.map (fun d => if d.reservation = some task then { d with reservation := none } else d)
        funcs := s.funcs.map (fun f => if f.xtasks.contains task then { f with xtasks := f.xtasks.erase task }
          else f) }
      match k.node with
      | none => s
      | some (g, i) =>
        let v := k.outcome
        s.nodeDone g i v.status.toNat v.cause.toNat (if lands then 0 else v.detail.toNat % 2 ^ 16)
          (if lands then k.ncorr else 0))

end Sys2Proof.Machine
end

