-- ==== Sys2Proof/Machine/Queues.lean ====
section
/-!
DEFINITION. Work queues (R54 to R56, R60), the taking of task records (R56, R57, R78 to R84, R101), and spawns
with their overflow area (R51, R96, R97, R427).
-/

namespace Sys2Proof.Machine

/-! ### Queue registers (R54, R55) -/

/-- A queue-error event of a function (R55, R73); what no rule says of the record is free (log 15). -/
def State.queueError (s : State) (vf : Nat) : State :=
  let n := s.fresh
  { s with fresh := n + 3 }.event vf 0x06 (Config.eventDetail n).toNat (Config.eventDetail (n + 1))
    (Config.eventDetail (n + 2))

/-- A refused write: ERR and an event. -/
def State.refuseQueue (s : State) (vf q : Nat) : State :=
  (s.setWq vf q { s.wq vf q with err := true }).queueError vf

/-- Tasks of a queue that wait for their restart; no node of a graph is one of them (log 49). -/
def State.parkedOf (s : State) (vf q : Nat) : List Nat :=
  (s.tasks.filter (fun e => e.2.awaitsRestart && e.2.node.isNone && e.2.vf == vf && e.2.queue == q)).map
    Prod.fst

/-- QCFG_WRITE (R54, R55, R122). -/
def execQcfgWrite (vf q : Nat) (v : W64) (s : State) : Host.Outcome State Fault Refusal :=
  s.whenReady (fun s =>
    let x := s.wq vf q
    let en := wbit v 31
    let loc := wbit v 30
    let log2n := wbits v 27 24
    if (x.en && (loc != x.loc || log2n != x.log2n)) || (!x.en && en && log2n < 4) then s.refuseQueue vf q
    else
      let s := s.setWq vf q { x with
        en := en, loc := loc, irq := wbit v 29, err := x.err && !wbit v 28, log2n := log2n
        vec := wbits v 5 0, head := if en && !x.en then x.tail else x.head }
      if x.en && !en then (s.parkedOf vf q).foldl (fun s t => s.endWaiting t 0x04) s else s)

/-- QTAIL_WRITE (R55). -/
def execQtailWrite (vf q : Nat) (v : W64) (s : State) : Host.Outcome State Fault Refusal :=
  s.whenReady (fun s =>
    let x := s.wq vf q
    let t : W32 := v.setWidth 32
    if 2 ^ 31 ≤ (t - x.tail).toNat || 2 ^ x.log2n < (t - x.head).toNat then s.refuseQueue vf q
    else s.setWq vf q { x with tail := t })

/-- QBASE_WRITE (R54, R55). -/
def execQbaseWrite (vf q : Nat) (v : W64) (s : State) : Host.Outcome State Fault Refusal :=
  s.whenReady (fun s =>
    let x := s.wq vf q
    if x.en then s.refuseQueue vf q else s.setWq vf q { x with base := setBits v 5 0 0 })

/-- OVSIZE_WRITE (R51). -/
def execOvsizeWrite (vf : Nat) (v : W64) (s : State) : Host.Outcome State Fault Refusal :=
  s.whenReady (fun s =>
    let n := wbits v 20 0
    if 2 ^ 20 < n then s.queueError vf else s.modFunc vf (fun f => { f with ovsize := n }))

/-! ### Records in memory -/

/-- A record at a device offset of a partition; a line that cannot be read holds anything (log 13). -/
def State.readOffset (s : State) (p off : Nat) : List Byte × State :=
  match s.dpaOf p off with
  | none => (List.replicate 64 0, s)
  | some a =>
    match s.fetchTarget (a / 2 ^ 37) (.device a) 64 with
    | (.data bs, s) => (bs, s)
    | (_, s) => (s.lostBytes 64, { s with fresh := s.fresh + 1 })

/-- A record stored at a device offset of a partition. -/
def State.writeOffset (s : State) (p off : Nat) (bs : List Byte) : State :=
  match s.dpaOf p off with
  | none => s
  | some a => (s.storeTarget (a / 2 ^ 37) (.device a) bs).2

/-- The place of record `n` of a queue. -/
def WorkQueue.place (x : WorkQueue) (n : W32) : Nat := x.base.toNat + 64 * (n.toNat % 2 ^ x.log2n)

/-- Whether a record at a device offset of a partition lies in a bank that scans (R219). -/
def State.offsetBusy (s : State) (p off : Nat) : Bool :=
  match s.dpaOf p off with
  | none => false
  | some a => s.targetBusy (.device a) 64

/-- The record at the head of a queue (R54, R56). -/
def State.headRecord (s : State) (p : Nat) (x : WorkQueue) : List W64 × State :=
  if x.loc then
    let (bs, s) := s.readOffset p (x.place x.head)
    (words64 8 bs, s)
  else (words64 8 (s.host.read (x.place x.head) 64), s)

/-- A record placed at the tail of a queue (R96). -/
def State.placeRecord (s : State) (p vf q : Nat) (ws : List W64) : State :=
  let x := s.wq vf q
  let s := if x.loc then s.writeOffset p (x.place x.tail) (bytesOfWords ws)
    else if (s.func vf).flr then s
    else s.writeHost (x.place x.tail) (bytesOfWords ws)
  s.setWq vf q { x with tail := x.tail + 1 }

/-- Whether a queue has a slot left. -/
def WorkQueue.hasRoom (x : WorkQueue) : Bool := (x.tail - x.head).toNat < 2 ^ x.log2n

/-! ### Taking a record (R56, R57, R78 to R84, R100) -/

/-- What a record comes to at its take. -/
inductive Taken where
  | refused (detail : Nat)
  | kernel (k : Task)
  | graph (header : List W64) (nodes : List (List W64)) (fault : Option Nat)
  deriving DecidableEq, Repr

/-- The image of a graph task read and validated; its LAUNCH block is read and not used (R79). -/
def State.examineGraph (s : State) (home : Nat) (k : Task) : Taken × State :=
  let s := (s.readHeld home k [((k.word 1).toNat, 64)]).2
  let h := k.header
  let n := graphNodes h
  if !graphHeader h || !graphShape k.record then (.graph h [] (graphFault k.record h []), s)
  else
    match s.holdPages home k .load (k.word 0).toNat (64 * (1 + n)) 0x08 with
    | (.error d, s) => (.refused d, s)
    | (.ok k, s) =>
      match s.readHeld home k (runsOf ((k.word 0).toNat + 64) (64 * n)) with
      | (none, s) => (.refused 0x08, s)
      | (some bs, s) =>
        let nodes := (chunksOf 64 n bs).map (words64 8)
        (.graph h nodes (graphFault k.record h nodes), s)

/-- The record of a task examined. -/
def State.examine (s : State) (home : Nat) (k : Task) : Taken × State :=
  match firstDetail (s.recordChecks k.part k.record) with
  | some d => (.refused d, s)
  | none =>
    match s.openImage home k with
    | (.error d, s) => (.refused d, s)
    | (.ok (k', kind), s') =>
      if kind = 2 then s'.examineGraph home k'
      else
        match s.checkKernel home k with
        | (.ok k, s) => (.kernel k, s)
        | (.error d, s) => (.refused d, s)

/-- The dies whose command processors may run a graph task, in order (R79). A virtual die whose cohorts lie on
several dies is served by the die of its first cohort (DESIGN CHOICE, log 49). -/
def State.graphDies (s : State) (p : Nat) (w : W64) : List Nat :=
  (if gangAnchor w = 0xFF then List.range 4 else [gangAnchor w / 64]).filterMap (fun v =>
    ((s.part p).cohorts[8 * v]?).map (· / 8))

/-- The record slots that a graph takes (R80): NODES, and no more than the 4,096 that a graph may have, so that a
header that is refused for its NODES is taken (DEDUCED, log 29). -/
def graphRecords (h : List W64) : Nat := Nat.min 4096 (graphNodes h)

/-- Whether what a record comes to has room (R80, R102). -/
def State.takenRoom (s : State) (home : Nat) (k : Task) : Taken → Bool
  | .refused _ => true
  | .kernel _ => s.readyRoom (s.ownerOf k.part home (k.word 3)) k.part
  | .graph h _ _ => (s.graphDies k.part (k.word 3)).any (fun d => s.graphRoom d (graphRecords h))

/-- A graph taken, with what its validation found. -/
def State.enterGraph (s : State) (k : Task) (h : List W64) (nodes : List (List W64)) (fault : Option Nat) :
    State :=
  let (g, s) := s.number
  let die := ((s.graphDies k.part (k.word 3)).find? (fun d => s.graphRoom d (graphRecords h))).getD 0
  s.setGraph g
    { record := k.record, vf := k.vf, queue := k.queue, part := k.part, die := die, nodes := nodes,
      records := graphRecords h
      state := if fault.isSome then .draining else .running, at_ := graphEntry h, since := s.tide
      fail := fault.map (fun d => (d / 2 ^ 16, 0, d % 2 ^ 16)), taken := s.tide }

/-- A die's scheduler. -/
def State.sched (s : State) (d : Nat) : DieSched := vget {} s.dies d

def State.modSched (s : State) (d : Nat) (f : DieSched → DieSched) : State :=
  { s with dies := vset s.dies d (f (s.sched d)) }

/-- The task that the head of a queue would be. -/
def State.headTask (s : State) (p vf q : Nat) : Task × State :=
  let (r, s) := s.headRecord p (s.wq vf q)
  ({ record := r, vf := vf, queue := q, part := p }, s)

/-- Whether the take of the head of a queue waits for a bank that scans (R219): for the record, the image's header,
map or nodes, or the restart header. -/
def State.takeBusy (s : State) (home : Nat) (x : WorkQueue) (k : Task) : Taken → Bool
  | .refused _ => x.loc && s.offsetBusy k.part (x.place x.head)
  | .kernel y => (x.loc && s.offsetBusy k.part (x.place x.head))
      || s.virtualBusy k.part home .load (k.word 0).toNat 320
      || (y.ckaddr != 0 && s.virtualBusy k.part home .store y.ckaddr 64)
  | .graph _ nodes _ => (x.loc && s.offsetBusy k.part (x.place x.head))
      || s.virtualBusy k.part home .load (k.word 0).toNat (64 * (1 + nodes.length))
      || s.virtualBusy k.part home .load (k.word 1).toNat 64

/-- TASK_TAKE (R56): the record is read once, checked, and QHEAD moves on. -/
def execTaskTake (vf q : Nat) (s : State) : Host.Outcome State Fault Refusal :=
  .next (match s.partOfVf vf with
    | none => s
    | some p =>
      let home := (s.homeDie p).getD 0
      let (k, s) := s.headTask p vf q
      let (r, s) := s.examine home k
      if !s.takenRoom home k r || s.takeBusy home (s.wq vf q) k r then s
      else
        let (d, s) := s.later 1
        let x := s.wq vf q
        let s := (s.setWq vf q { x with head := x.head + 1 }).modSched home (fun y =>
          { y with rot := queueKey vf q, visit := d })
        match r with
        | .refused d => s.refuseTask { k with owner := home } d
        | .kernel k => s.enterReady { k with owner := s.ownerOf p home (k.word 3) }
        | .graph h nodes fault => s.enterGraph k h nodes fault)

/-- Whether a die's scheduler may take the head of a queue (R101). -/
def State.takeable (s : State) (die : Nat) (e : Nat × WorkQueue) : Bool :=
  e.2.en && e.2.tail != e.2.head &&
  (match s.partOfVf (e.1 / 512) with
    | none => false
    | some p =>
      (s.part p).state == .running && s.homeDie p == some die &&
        (let (k, s') := s.headTask p (e.1 / 512) (e.1 % 512)
         let r := (s'.examine die k).1
         s.takenRoom die k r && !s.takeBusy die e.2 k r))

/-- The queue that a die's scheduler visits at this tide: the next of its rotation with a record to take. -/
def State.visit (s : State) (die : Nat) : Option Nat :=
  let d := s.sched die
  if s.tide < d.visit then none
  else
    let (upto, past) := s.queues.partition (fun e => e.1 ≤ d.rot)
    ((past ++ upto).find? (s.takeable die)).map Prod.fst

/-! ### Spawns (R96, R97) -/

/-- Status codes of R427. -/
def spawnOk : Nat := 0
def spawnFailed : Nat := 3
def spawnFull : Nat := 6

/-- The lowest place of an overflow area that holds no record. -/
def Func.freePlace (f : Func) : Option Nat :=
  ((List.range (f.spills.length + 1)).map (fun i => f.ovbase.toNat + 64 * i)).find? (fun o =>
    !f.spills.any (fun x => x.2 == o))

/-- A record spilled to the overflow area of its function. -/
def State.spill (s : State) (p vf q : Nat) (ws : List W64) : Nat × State :=
  let f := s.func vf
  if f.ovsize ≤ f.spills.length then (spawnFull, s)
  else
    match f.freePlace with
    | none => (spawnFull, s)
    | some off =>
      (spawnOk, (s.writeOffset p off (bytesOfWords (ws.set 7 (setBits (ws.getD 7 0) 8 0 q)))).setFunc vf
        { f with spills := f.spills ++ [(q, off)] })

/-- A spawn of a task (R96): its status code. With WQOVF 1, a queue that has a spilled record pending is full
(DESIGN CHOICE, log 49). -/
def State.spawn (s : State) (k : Task) (b : W64) (ws : List W64) : Nat × State :=
  if 511 < b.toNat then (spawnFailed, s)
  else
    let q := b.toNat
    let x := s.wq k.vf q
    let pending := (s.func k.vf).spills.any (fun e => e.1 == q)
    if !x.en then (spawnFull, s)
    else if x.hasRoom && !pending then (spawnOk, s.placeRecord k.part k.vf q ws)
    else if wbit k.hmode 6 then (spawnFull, s)
    else s.spill k.part k.vf q ws

/-- STATUS_REPLY_LANDING (R383): the status of a spawn, which takes place now, or of an acknowledged
request. -/
def execStatusReplyLanding (core req : Nat) (s : State) : Host.Outcome State Fault Refusal :=
  .next (match (s.core core).req req with
    | some r =>
      match r.op, s.taskOf core, (s.core core).task with
      | .spawn d b ws, some k, some t =>
        let (code, s) := s.spawn k b ws
        ((s.retire core r).landStatus core t d (w64 code)).wideRelease core r
      | _, _, _ => s
    | none =>
      match s.acks.find? (fun a => a.id == req) with
      | some a => (s.landStatus a.core a.task a.reg (a.status.getD 0)).dropAck a.id
      | none => s)

/-- Whether a spawn waits for the bank of the record's place in its queue (R219). -/
def State.spawnBusy (s : State) (c : Nat) (r : GReq) : Bool :=
  match r.op, s.taskOf c with
  | .spawn _ b _, some k =>
    let x := s.wq k.vf b.toNat
    x.loc && s.offsetBusy k.part (x.place x.tail)
  | _, _ => false

/-- The first spilled record of a queue. -/
def Func.firstSpill (f : Func) (q : Nat) : Option Nat := (f.spills.find? (fun e => e.1 == q)).map Prod.snd

/-- SPILL_MOVE (R96): the oldest spilled record of a queue moves into it. -/
def execSpillMove (vf q : Nat) (s : State) : Host.Outcome State Fault Refusal :=
  .next (match s.partOfVf vf, (s.func vf).firstSpill q with
    | some p, some off =>
      let x := s.wq vf q
      if !x.en || !x.hasRoom then s
      else
        let (bs, s) := s.readOffset p off
        (s.modFunc vf (fun f => { f with spills := f.spills.erase (q, off) })).placeRecord p vf q
          ((words64 8 bs).set 7 0)
    | _, _ => s)

/-- Whether a spilled record waits for a bank that scans, its own or that of its place in the queue (R219). -/
def State.spillBusy (s : State) (vf q : Nat) : Bool :=
  match s.partOfVf vf, (s.func vf).firstSpill q with
  | some p, some off =>
    let x := s.wq vf q
    s.offsetBusy p off || (x.loc && s.offsetBusy p (x.place x.tail))
  | _, _ => false

/-- The queues into which a spilled record may move. -/
def State.spillsDue (s : State) : List (Nat × Nat) :=
  (List.range 257).flatMap (fun vf =>
    (((s.func vf).spills.map Prod.fst).eraseDups.filter (fun q => (s.wq vf q).en && (s.wq vf q).hasRoom
      && !s.spillBusy vf q)).map (fun q => (vf, q)))

end Sys2Proof.Machine
end

