-- ==== Sys2Proof/Machine/Gangs.lean ====
section
/-!
DEFINITION. Scheduling gangs (spec/05): admission (R103 to R105), drain reservations and pre-emption requests
(R108, R116), code streaming (R110), placement and the start (R106, R107, R119, R120, R335), the ends of a
gang (R113, R463), its watchdogs (R113 to R115, R131), and the pre-emption stop (R118).
-/

namespace Sys2Proof.Machine

/-! ### Who holds a core -/

/-- A task that waits for admission. -/
def Task.waits (k : Task) : Bool := k.state == .ready || k.state == .parked

/-- A task whose cores are held by a successor lease or a reservation (R108, R110). -/
def Task.leases (k : Task) : Bool := k.waits || k.state == .reserved || k.state == .loading

/-- Whether a core is held by another task's reservation or successor lease. -/
def State.heldBy (s : State) (t c : Nat) : Bool :=
  s.tasks.any (fun e => e.1 != t && e.2.leases && e.2.cores.contains c)

/-- Whether a task could be placed on some cores (R103), where `free` says which cores may be taken. -/
def State.placeAt (s : State) (t : Nat) (k : Task) (free : Nat → Bool) (cores : List Nat) : Bool :=
  (s.part k.part).state == .running && s.reachable cores && !s.phold && !s.thold &&
  cores.all (fun c => free c && !s.heldBy t c && !(s.part k.part).retired.contains c
    && !s.misal.getLsbD (dieOf c))

/-- The placements that a task tries. -/
def State.placements (s : State) (k : Task) : List (List Nat) :=
  if k.state = .reserved then [k.cores] else s.positions k.part (k.word 3)

/-- Whether a core is quiet (R113): it has no gang, or is quiet in the one that it has. -/
def State.idles (s : State) (c : Nat) : Bool := (s.core c).task.isNone || (s.core c).mode == .quiet

/-- The first placement at which a task is admittable (R103). -/
def State.admittable (s : State) (t : Nat) (k : Task) : Option (List Nat) :=
  (s.placements k).find? (s.placeAt t k s.idles)

/-- Whether a core is quiet, or held by a running pre-emptible gang of a class below one (R116). -/
def State.yields (s : State) (prio c : Nat) : Bool :=
  s.idles c || match s.taskOf c with
  | none => true
  | some u => u.state == .running && !u.np && decide (u.prio < prio)

/-- A gang asked to stop (R116). -/
def State.askStop (s : State) (cores : List Nat) : State :=
  s.tasks.foldl (fun s e =>
    if e.2.state == .running && !e.2.np && e.2.cores.any (fun c => cores.contains c && !s.idles c) then
      s.modTask e.1 (fun k => { k with preempt := true })
    else s) s

/-- Requests that no lease asks for any more are withdrawn. -/
def State.withdrawStops (s : State) : State :=
  s.tasks.foldl (fun s e =>
    if e.2.preempt && !e.2.cores.any (s.heldBy e.1) then s.modTask e.1 (fun k => { k with preempt := false })
    else s) s

/-! ### Admission (R104, R106) -/

/-- A task admitted to some cores (R106, R71, R130). -/
def State.admitTask (s : State) (t : Nat) (k : Task) (cores : List Nat) : State :=
  let x := horizonOf cores
  (s.dropLeases t k cores).setTask t { k with
    state := .loading, cores := cores, candidate := false, decision := s.tide, placement := none
    hmode := s.hmodeOf k.part, h := x.1, d := x.2, preempt := false, shielded := false, stop := none
    verdict := none }

/-- The older of two tasks by ready tide, then by take. -/
def older (a b : Nat × Task) : Bool := a.2.readyTide < b.2.readyTide || (a.2.readyTide == b.2.readyTide && a.1 ≤ b.1)

/-- The tasks of a die that are admittable, with their placements, the oldest first. -/
def State.admittables (s : State) (d : Nat) : List ((Nat × Task) × List Nat) :=
  (sortBy older (s.tasks.filter (fun e => e.2.owner == d && e.2.waits))).filterMap (fun e =>
    (s.admittable e.1 e.2).map (fun cs => (e, cs)))

/-- The deficit of a partition in a class (R104). -/
def DieSched.def_ (x : DieSched) (p c : Nat) : Int := Sparse.get 0 x.deficit (p * 4 + c)

def DieSched.setDef (x : DieSched) (p c : Nat) (v : Int) : DieSched :=
  { x with deficit := x.deficit.set 0 (p * 4 + c) v }

/-- The loop of R104 over the admittable tasks of a class: the scheduler, and the task picked. -/
def DieSched.pick (x : DieSched) (c : Nat) (cs : List ((Nat × Task) × List Nat)) :
    Nat → DieSched × Option ((Nat × Task) × List Nat)
  | 0 => (x, none)
  | n + 1 =>
    let p := vget 0 x.cur c
    let g := cs.find? (fun e => e.1.2.part == p)
    let next (x : DieSched) : DieSched :=
      let q := (p + 1) % 32
      { x with cur := vset x.cur c q }.setDef q c (x.def_ q c + 64)
    match g with
    | some e =>
      if (e.2.length : Int) ≤ x.def_ p c then (x.setDef p c (x.def_ p c - e.2.length), some e)
      else (next x).pick c cs n
    | none => (next (x.setDef p c 0)).pick c cs n

/-- Deficit round-robin in the highest class with an admittable task (R104). -/
def State.pickGang (s : State) (d : Nat) : State :=
  let all := s.admittables d
  match [3, 2, 1, 0].find? (fun c => all.any (fun e => e.1.2.prio == c)) with
  | none => s
  | some c =>
    match (s.sched d).pick c (all.filter (fun e => e.1.2.prio == c)) 256 with
    | (x, some e) => (s.modSched d (fun _ => x)).admitTask e.1.1 e.1.2 e.2
    | (x, none) => s.modSched d (fun _ => x)

/-! ### Drain reservations (R108) -/

/-- The wait that makes a candidate, 1 ms. -/
def candidateTc : Nat := 600000

/-- Whether a task becomes a reservation candidate at this tide. -/
def State.becomesCandidate (s : State) (e : Nat × Task) : Bool :=
  e.2.waits && !e.2.candidate && decide (e.2.readyTide + candidateTc < s.tide) && (s.admittable e.1 e.2).isNone

/-- RESERVATION_CANDIDATE (R108). -/
def execReservationCandidate (task : Nat) (s : State) : Host.Outcome State Fault Refusal :=
  .next (s.modTask task (fun k => { k with candidate := true }))

/-- The cores that a reservation takes: the first placement with no core of a running non-pre-emptible gang,
or else the first. -/
def State.reservedCores (s : State) (k : Task) : List Nat :=
  let ps := s.positions k.part (k.word 3)
  let free (c : Nat) : Bool :=
    match s.taskOf c with
    | some u => !u.np
    | none => true
  ((ps.find? (fun cs => cs.all free)).getD (ps.headD []))

/-- A reservation granted: leases asked for by requests on its cores are withdrawn (R122). -/
def State.grant (s : State) (t : Nat) (k : Task) (cores : List Nat) : State :=
  let ds := (cores.map dieOf).eraseDups
  let s := ds.foldl (fun s d => s.modSched d (fun x => { x with reservation := some t })) s
  let s := s.tasks.foldl (fun s e =>
    if e.1 != t && e.2.waits && e.2.cores.any cores.contains then
      (s.dropLeases e.1 e.2 []).setTask e.1 { e.2 with cores := [] }
    else s) s
  ((s.dropLeases t k cores).setTask t { k with state := .reserved, cores := cores }).withdrawStops

/-- Candidates granted, in ascending ready tide, then partition, then take. One that waits for a die keeps its
dies from those that come after it (R109). -/
def State.grantReservations (s : State) : State :=
  let le (a b : Nat × Task) : Bool :=
    a.2.readyTide < b.2.readyTide || (a.2.readyTide == b.2.readyTide &&
      (a.2.part < b.2.part || (a.2.part == b.2.part && a.1 ≤ b.1)))
  ((sortBy le (s.tasks.filter (fun e => e.2.candidate && e.2.waits))).foldl (fun (x : State × List Nat) e =>
    let cores := x.1.reservedCores e.2
    let dies := cores.map dieOf
    if !cores.isEmpty && dies.all (fun d => (x.1.sched d).reservation.isNone && !x.2.contains d) then
      (x.1.grant e.1 e.2 cores, x.2)
    else (x.1, x.2 ++ dies)) (s, [])).1

/-- The reservation holders of a die that are admittable are admitted; the occupants of the others' cores
are asked to stop. -/
def State.serveReservations (s : State) (d : Nat) : State :=
  s.tasks.foldl (fun s e =>
    if e.2.owner == d && e.2.state == .reserved then
      match s.admittable e.1 e.2 with
      | some cs => s.admitTask e.1 e.2 cs
      | none => s.askStop e.2.cores
    else s) s

/-- Class-triggered requests of a die's tasks (R116). -/
def State.requestStops (s : State) (d : Nat) : State :=
  let le (a b : Nat × Task) : Bool := b.2.prio < a.2.prio || (a.2.prio == b.2.prio && older a b)
  (sortBy le (s.tasks.filter (fun e => e.2.owner == d && e.2.waits && e.2.cores.isEmpty))).foldl (fun s e =>
    if (s.admittable e.1 e.2).isSome then s
    else
      match (s.placements e.2).find? (s.placeAt e.1 e.2 (s.yields e.2.prio)) with
      | some cs => (s.askStop cs).setTask e.1 { e.2 with cores := cs }
      | none => s) s

/-- ADMISSION_DECISION (R104, R108, R116): a die's decision. The first of a tide grants the reservations of all
dies, in one order. -/
def execAdmissionDecision (die : Nat) (s : State) : Host.Outcome State Fault Refusal :=
  .next ((((if die = 0 then s.grantReservations else s).serveReservations die).pickGang die).requestStops die)

/-! ### Streaming code (R110) -/

/-- The successor of a core: an admitted task before a reservation's, and that before a request's. -/
def State.successor (s : State) (c : Nat) : Option (Nat × Task) :=
  let hs := s.tasks.filter (fun e => e.2.leases && e.2.cores.contains c)
  (hs.find? (fun e => e.2.state == .loading)).or
    ((hs.find? (fun e => e.2.state == .reserved)).or hs.head?)

/-- KROWS of a task. -/
def Task.krows (k : Task) : Nat := wbits (k.word 5) 6 0

/-- What the loader of a core starts next: the task, the row, and whether it is the core's own, which it loads while
the core's fetch may still come to it. -/
def State.nextRow (s : State) (c : Nat) : Option (Nat × Nat × Bool) :=
  let k := s.core c
  let ahead : Option (Nat × Nat × Bool) := (s.successor c).bind (fun e =>
    if k.ahead < e.2.krows then some (e.1, k.ahead, false) else none)
  match s.taskOf c, k.task with
  | some x, some t => if k.started < x.krows && (k.saved.getD k.stream).fetching then some (t, k.started, true)
    else ahead
  | _, _ => ahead

/-- The first Free row of a core's store. -/
def Core.freeRow (k : Core) : Option Nat := (List.range 64).find? (fun i => (k.lease.find i).isNone)

/-- The stream of a core of a gang (R98, R99). -/
def Task.streamOf (k : Task) (c : Nat) : Nat := (k.map.getD (k.cores.idxOf c) 0).toNat

/-- The cores of one die that take a row of a task's stream with a core: those whose fetch may still come to it. -/
def State.rowPeers (s : State) (t : Nat) (k : Task) (c : Nat) : List Nat :=
  k.cores.filter (fun d => dieOf d == dieOf c && k.streamOf d == k.streamOf c
    && ((s.core d).task != some t || ((s.core d).saved.getD (s.core d).stream).fetching))

/-- Whether the loader of a core can start a row of a task. -/
def State.takesRow (s : State) (t row c : Nat) : Bool :=
  let k := s.core c
  !k.lease.any (fun e => e.2.state == .loading) && k.freeRow.isSome
    && (s.nextRow c).any (fun x => x.1 == t && x.2.1 == row)

/-- A core's store takes a row that is on its way. -/
def State.leaseRow (t row : Nat) (s : State) (c : Nat) : State :=
  let own := (s.nextRow c).any (fun x => x.2.2)
  s.modCore c (fun k => { k with
    lease := k.lease.put (k.freeRow.getD 0) { task := t, row := row, state := .loading }
    started := if own then k.started + 1 else k.started
    ahead := if own then k.ahead else k.ahead + 1 })

/-- The loader of a core starts a row, if there is one to load and a Free row, and none is in transit: at once
on every core of the die that uses the stream (R110). -/
def State.loadRow (s : State) (c : Nat) : State :=
  match s.nextRow c with
  | none => s
  | some (t, row, _) =>
    match s.task? t with
    | none => s
    | some k =>
      let peers := s.rowPeers t k c
      if peers.contains c && peers.all (s.takesRow t row) then
        let (d, s) := s.later 16
        (peers.foldl (State.leaseRow t row) s).due d (.rowLoadComplete c row) 0
      else s

/-- The address of a core's row of a kernel (R99). -/
def Task.rowAddr (k : Task) (c row : Nat) : Nat := (k.word 0).toNat + 1024 * (1 + k.streamOf c * k.krows + row)

/-- Whether bytes that a task reads through its translations lie in a bank that scans (R219). -/
def State.heldBusy (s : State) (k : Task) (va n : Nat) : Bool :=
  !s.scans.isEmpty && (runsOf va n).any (fun r => (k.held r.1).any (fun e => s.targetBusy (e.target r.1) r.2))

/-- A task whose code or launch block cannot be read ends (log 13). -/
def State.failLoad (s : State) (t : Nat) (k : Task) : State :=
  let (x, s) := s.unstated
  { (s.dropLeases t k []).setTask t { k with
      state := .ending, verdict := some ⟨0x03, 0x19, BitVec.ofNat 32 x⟩, cores := [] } with
    now := s.now ++ [.event (.taskComplete t) 0] }

/-- The row of a task in transit to a core, if one is: the place, and the lease. -/
def Core.loadingRow (k : Core) (row : Nat) : Option (Nat × Lease) :=
  k.lease.find? (fun e => e.2.state == .loading && e.2.row == row)

/-- A row of a task has come to a core: it is Next, or Live where the task runs. -/
def Core.rowLanded (k : Core) (t row : Nat) (bs : List Byte) : Core :=
  match k.loadingRow row with
  | some (i, l) =>
    if l.task ≠ t then k
    else
      { k with
        lease := k.lease.put i { l with state := if k.task = some t then .live else .next }
        istore := Sparse.write 0 k.istore (i * 256) (rowWords bs) }
  | none => k

/-- ROW_LOAD_COMPLETE (R110): the row is read once and written to every core of the die that uses the stream. -/
def execRowLoadComplete (core row : Nat) (s : State) : Host.Outcome State Fault Refusal :=
  .next (match (s.core core).loadingRow row with
    | none => s
    | some (i, l) =>
      match s.task? l.task with
      | none => s.modCore core (fun k => { k with lease := k.lease.erase i })
      | some x =>
        if s.heldBusy x (x.rowAddr core row) 1024 then s.due (s.tide + 1) (.rowLoadComplete core row) 0
        else
          match s.readHeld x.owner x [(x.rowAddr core row, 1024)] with
          | (none, s) =>
            if (s.core core).task == some l.task then s.fail core 0x19 (BitVec.ofNat 32 (s.core core).vid)
            else s.failLoad l.task x
          | (some bs, s) =>
            let peers := x.cores.filter (fun c => dieOf c == dieOf core && x.streamOf c == x.streamOf core)
            s.modCores peers (fun k => k.rowLanded l.task row bs))

/-! ### Leaving a core (R60, R118, R463) -/

/-- An access that has issued and has not been performed, as its core leaves: a write is performed, once its bank does
not scan (R219), a load is dropped. -/
def State.flushReq (c t : Nat) (k : Task) (s : State) (r : GReq) : State :=
  match r.op with
  | .store .. => s.writePieces (dieOf c) k.part t r.pieces ((s.core c).storeBytesOf r.op)
  | .storeValue .. => s.writePieces (dieOf c) k.part t r.pieces ((s.core c).storeBytesOf r.op)
  | .rmw _ op _ =>
    match r.pieces with
    | p :: _ => if op.attempt then s else s.atomicLate (dieOf c) k.part t p.target op
    | [] => s
  | .signal d n => (s.signalArrives d n k.part none).2
  | .spawn _ b ws => if ws.isEmpty then s else (s.spawn k b ws).2
  | _ => s

/-- Whether core order lets a request be over once those before it are that it need not wait for. -/
def Core.passes (k : Core) (out : List Nat) (r : GReq) : Bool :=
  if r.op.isLoad then !r.acq else if r.isAccess then k.mayGo r else k.complete out r

/-- The requests of a core that the memory side has not accepted, since they wait for acknowledgements or for a
read, and what stands behind those (R118). -/
def State.unsent (s : State) (c : Nat) : List GReq :=
  let out := s.outstandingIds
  (s.core c).reqs.foldl (fun ds r =>
    if { s.core c with reqs := ds ++ [r] }.passes out r && !(r.op.isStore && s.nearHolds c r) then ds else ds ++ [r]) []

/-- The requests of a core that a pre-emption stop drops (R212): what has not been accepted, and the releases that have
not been performed with all that comes after them. -/
def State.droppedAtStop (s : State) (c : Nat) : List GReq :=
  let held := s.unsent c
  let rs := (s.core c).reqs
  rs.filter (fun r => held.contains r || rs.any (fun x => x.op.isStore && x.rel && decide (x.id ≤ r.id)))

/-- Whether an access or a fence is never over where its gang runs no more: an attempt at a gate, the mark of an acquire
whose gate has not opened, and what these hold back. -/
def State.stuck (s : State) (c : Nat) : List GReq :=
  (s.core c).reqs.foldl (fun ds r =>
    let waits := match r.op with
      | .rmw _ op _ => op.attempt
      | .acquired armed _ => !armed
      | _ => false
    if waits || ds.any (fun x => x.blocks r || (r.op == .fence && r.rel)) then ds ++ [r] else ds) []

/-- Whether a write of a core whose task has failed is still to be accepted (R60, R438): it is, unless what it waits for
never comes. -/
def State.writesLeft (s : State) (c : Nat) : Bool :=
  let ds := s.stuck c
  (s.core c).reqs.any (fun r => r.op.isStore && !ds.contains r)

/-- Whether a write of a core has yet to be accepted. -/
def State.holdsWrite (s : State) (c : Nat) : Bool :=
  !(s.core c).reqs.isEmpty && (s.unsent c).any (fun r => r.op.isStore && !(match r.op with
    | .rmw _ op _ => op.attempt
    | _ => false))

/-- The writes of a core that the memory side has accepted are performed; the others are dropped. -/
def State.flushCore (s : State) (t : Nat) (k : Task) (c : Nat) : State :=
  let held := if k.state == .stopping then s.droppedAtStop c else s.unsent c
  ((s.core c).reqs.filter (fun r => !held.any (fun x => x.id == r.id))).foldl (fun s r => s.flushReq c t k r) s

/-- The engine commands and chain entries of a core end with a status, and its chains stop. -/
def State.endCommands (s : State) (status : Nat) (c : Nat) : State :=
  ((s.core c).cmds.foldl (fun s x => s.endCommand c x status) s).modCore c (fun k => { k with
    chains := k.chains.map (fun x => { x with run := false, stop := none }) })

/-- A core that has left its gang: nothing of it is under way but acknowledgements of near-memory
requests. -/
def Core.release (k : Core) (t : Nat) (dropped : List Nat) : Core :=
  let near := k.near.filter (fun r => !dropped.contains r.id && !r.acked)
  let held := near.flatMap NearReq.tlb ++ k.services.flatMap Prod.snd
  { k with
    task := none, mode := .idle, reqs := [], cmds := [], arriving := [], inflight := []
    captured := [], pend := [], occ := []
    mbuf := [], walk := none, saved := none, stopAt := none, haltTide := 0, wentQuiet := false, stream := {}, epi := {}
    near := near, ackedAt := 0, fencedAt := 0, started := 0
    lease := k.lease.filter (fun e => e.2.task != t)
    tlb := k.tlb.map (fun e => { e with count := held.countP (· == e.id) }) }

/-- A step that concerns a core. -/
def concerns (cores : List Nat) : Instr → Bool
  | .lockAttempt c => cores.contains c
  | .takeRead c => cores.contains c
  | .tileReloadComplete c _ => cores.contains c
  | .translationWalkDone c => cores.contains c
  | .freezeArrival c => cores.contains c
  | .engineCommandRetire c _ => cores.contains c
  | _ => false

/-- A step that concerns a gang's stop or its end. -/
def concernsGang (t : Nat) : Instr → Bool
  | .slipPlane u => u == t
  | .slipResume u => u == t
  | .gangResume u => u == t
  | .handlerStart u => u == t
  | .gangEnd u => u == t
  | _ => false

/-- Some cores of a gang released: accepted writes are performed, locks waited for are given up (R418), and rows
of the gang go. -/
def State.freeCores (s : State) (t : Nat) (k : Task) (cores : List Nat) : State :=
  let s := cores.foldl State.withdraw s
  let s := cores.foldl (fun s c => s.flushCore t k c) s
  let mine (m : Msg) : Bool := m.task == t && !m.kind.whole && (m.core.map cores.contains).getD false
  let dropped := (s.msgs.filter mine).map Msg.id
  let s := (s.modCores cores (fun c => c.release t dropped)).cancel (fun d => concerns cores d.ev)
  { s with
    msgs := s.msgs.filter (fun m => !mine m)
    bars := s.bars.filter (fun b => !cores.contains b.core)
    inbound := s.inbound.filter (fun x => !cores.contains x.dst) }

/-- The cores of a gang released, with the messages of the gang. -/
def State.releaseCores (s : State) (t : Nat) (k : Task) : State :=
  let s := (s.freeCores t k k.cores).cancel (fun d => concernsGang t d.ev)
  { s with flits := s.flits.filter (fun f => match f.kind with
      | .signal .. => true
      | _ => f.task != some t) }

/-! ### Placement and restart (R106, R107, R120, R335) -/

/-- A core as R107 leaves it, with what it keeps: scratchpad, code, buffer entries, block tags, and
near-memory requests under way. -/
def Core.cleared (k : Core) : Core :=
  { scratch := k.scratch, tlb := k.tlb, services := k.services, istore := k.istore, lease := k.lease
    near := k.near, ord := k.ord, started := k.started, ahead := k.ahead
    blocks := (k.blocks.map (fun e => (e.1, ({ tag := e.2.tag } : Block)))).filter (fun e => e.2 != {}) }

/-- Bytes of a checkpoint area; what cannot be read holds anything (log 13). -/
def State.areaBytes (s : State) (k : Task) (off n : Nat) : List Byte × State :=
  match s.readHeld k.owner k (runsOf (k.ckaddr + off) n) with
  | (some bs, s) => (bs, s)
  | (none, s) => (s.lostBytes n, { s with fresh := s.fresh + 1 })

/-- A ring restored (R335 step 2). -/
def Ring.restored (cfg count : W64) : Ring :=
  let n : W32 := count.setWidth 32
  { cfg := cfg &&& csrMask 0x80, rsv := n, pub := n, con := n, rel := n }

/-- A chain slot restored (R335 step 3). -/
def Chain.restored (next state : W64) (after ready : Nat) : Chain :=
  { run := wbit state 63, lnk := next != 0 || wbit state 63, next := next, rep := wbits state 15 0
    after := after, ready := ready }

/-- A loop restored (R335 step 4). -/
def LoopFrame.restored (w : W64) : LoopFrame :=
  { addr := wbits w 13 0, iter := wbits w 39 16, trips := wbits w 63 40 + 1, period := 0, gates := 1 }

/-- The fetch state restored (R335 step 4). -/
def Stream.restored (ws : List W64) : Stream :=
  let w := ws.getD 0 0
  { pc := wbits w 13 0, loops := ((ws.drop 1).take (Nat.min 4 (wbits w 18 16))).map LoopFrame.restored }

/-- A carried value restored (R191): its handle goes to its register. -/
def Core.restoreValue (k : Core) (word : W64) (bs : List Byte) : Core :=
  let shape : W32 := BitVec.ofNat 32 (wbits word 63 32)
  match k.allocate ((imageBytes shape + 4095) / 4096) shape with
  | .ok (b, k) => (k.storeScratch (k.blockAddr b) (bs.take (imageBytes shape))).setReg (wbits word 4 0)
      (k.handleOf b)
  | .error _ => k

/-- The locked segments of a core restored (R335 step 5). -/
def State.restoreSegments (s : State) (k : Task) (r c : Nat) : State :=
  (List.range 16).foldl (fun s i =>
    let (bs, s) := s.areaBytes k (r + 0x1000 + 4096 * i) 2056
    let ws := words64 257 bs
    if wbit (ws.getD 0 0) 63 && wbit (ws.getD 0 0) 62 then
      s.modCore c (fun x => { x with kvseg := vset x.kvseg i ⟨ws.getD 0 0, ws.drop 1⟩ })
    else s) s

/-- The carried values of a core restored (R335 step 6). -/
def State.restoreValues (s : State) (k : Task) (r c n : Nat) : State :=
  let (bs, s) := s.areaBytes k (r + 0x200) (16 * n)
  (List.range n).foldl (fun s i =>
    let w := (words64 (2 * n) bs).getD (2 * i + 1) 0
    let (data, s) := s.areaBytes k (r + 0x11000 + 0x8000 * i) (imageBytes (BitVec.ofNat 32 (wbits w 63 32)))
    s.modCore c (fun x => x.restoreValue w data)) s

/-- A core restored from its region (R335). -/
def State.restoreCore (s : State) (k : Task) (start c g : Nat) : State :=
  let r := regionOf g
  let (bs, s) := s.areaBytes k r 64
  let w := words64 8 bs
  let (rs, s) := s.areaBytes k (r + 0x40) 256
  let rw := words64 32 rs
  let (cs, s) := s.areaBytes k (r + 0x140) 128
  let cw := words64 16 cs
  let (fs, s) := s.areaBytes k (r + 0x1C0) 64
  let (n, s) := s.number
  let s := s.modCore c (fun x => { x with
    vid := ((s.virtual k.part c).getD 0)
    vheap := w.getD 0 0 &&& csrMask 0x1B
    parea := w.getD 1 0 &&& csrMask 0x1A
    trapvec := w.getD 2 0 &&& csrMask 0x18
    tsave := w.getD 3 0 &&& csrMask 0x19
    rings := Vector.ofFn (fun i : Fin 16 => Ring.restored (rw.getD (2 * i.val) 0) (rw.getD (2 * i.val + 1) 0))
    chains := Vector.ofFn (fun i : Fin 8 =>
      Chain.restored (cw.getD (2 * i.val) 0) (cw.getD (2 * i.val + 1) 0) n start)
    stream := Stream.restored (words64 8 fs) })
  (s.restoreSegments k r c).restoreValues k r c (Nat.min 32 (wbits (w.getD 4 0) 5 0))

/-- Whether a core holds the first rows of a task's stream (R106). -/
def Core.preloaded (k : Core) (t n : Nat) : Bool :=
  (List.range n).all (fun j => k.lease.any (fun e =>
    e.2.task == t && e.2.row == j && e.2.state != .loading))

/-- Whether a task's placement is complete at this tide (R106, R122). A core that is quiet in a gang that runs on stays
that gang's until it ends (R76): a gang admitted to it is placed after that (log 30). -/
def State.placed (s : State) (t : Nat) (k : Task) : Bool :=
  k.state == .loading && k.placement.isNone && !s.phold && !s.thold
    && k.decision + crossingOf k.owner k.cores ≤ s.tide
    && k.cores.all (fun c => (s.core c).preloaded t (headerPreload k.header) && (s.core c).task.isNone)
    && !s.heldBusy k (k.word 1).toNat 64 && (k.commits == 0
      || (!s.heldBusy k k.ckaddr (k.ckpages * 4096) && !s.late.any (fun w => w.task == t)))

/-- A core on which a task has been placed: its launch registers are set, and its fetch begins (R107). -/
def Core.placed (k : Core) (x : Task) (vid g : Nat) : Core :=
  let regs : Vector W64 32 := Vector.ofFn (fun i : Fin 32 =>
    if 24 ≤ i.val then x.launch.getD (i.val - 24) 0 else vget 0 k.sreg i.val)
  { k with
    vid := vid, gidx := g, part := x.part, sreg := regs, hmode := x.hmode
    stream := { k.stream with fetching := true } }

/-- The placement of a gang (R106): the launch block is read, the cores are cleared and, after a commit,
restored, and the start follows 64 tc later. -/
def State.place (s : State) (t : Nat) (k : Task) : State :=
  match s.readHeld k.owner k [((k.word 1).toNat, 64)] with
  | (none, s) => s.failLoad t k
  | (some bs, s) =>
    let start := s.tide + 64
    let k := { k with placement := some s.tide, launch := words64 8 bs }
    let s := s.setTask t k
    let s := { s with dies := s.dies.map (fun (d : DieSched) =>
      if d.reservation = some t then { d with reservation := none } else d) }
    let s := s.modCores k.cores Core.cleared
    let s := if k.commits = 0 then s
      else k.cores.zipIdx.foldl (fun s x => s.restoreCore k start x.1 x.2) s
    let s := k.cores.zipIdx.foldl (fun s x =>
      s.modCore x.1 (fun c => c.placed k ((s.virtual k.part x.1).getD 0) x.2)) s
    s.due start (.gangStart t) 0

/-- A core of a gang at its start (R107, R110). -/
def Core.begin (k : Core) (t start : Nat) : Core :=
  { k with
    task := some t, mode := .running, tbase := start, slip := 0, checked := start - 1, gateOpen := start
    stream := { k.stream with queues := k.stream.queues.map (fun q => { q with nxt := start }) }
    lease := k.lease.map (fun e =>
      (e.1, if e.2.task = t && e.2.state = .next then { e.2 with state := .live } else e.2))
    started := k.ahead, ahead := 0 }

/-- GANG_START (R106, R107, R119). -/
def execGangStart (task : Nat) (s : State) : Host.Outcome State Fault Refusal :=
  .next (match s.task? task with
    | none => s
    | some k =>
      if k.state ≠ .loading || k.placement.map (· + 64) ≠ some s.tide then s
      else
        let s := s.modCores k.cores (fun c => c.begin task s.tide)
        let s := if k.first = 0 && k.ckaddr ≠ 0 then s.writeArea task k 8 (bytesOfWords [w64 s.tide]) else s
        s.setTask task { k with
          state := .running, start := s.tide, run := w64 s.tide, endTide := none
          first := if k.first = 0 then s.tide else k.first })

/-! ### Quiet cores (R113) -/

/-- Whether nothing of a core is under way once the operations that perform up to a tide have. -/
def Core.settledBy (k : Core) (tide : Nat) : Bool :=
  k.captured.isEmpty && k.inflight.all (fun p => !p.exposed || p.at_ ≤ tide) && k.cmds.isEmpty
    && k.chains.toList.all (fun c => !c.run)

/-- Whether a core's queues are empty. -/
def Core.drained (k : Core) : Bool := k.stream.queues.toList.all (fun q => q.words.isEmpty)

/-- Whether a core's queries have all landed. -/
def State.scansDone (s : State) (c : Nat) : Bool :=
  !s.scans.any (fun x => x.core == c && (s.core c).task == some x.task)

/-- Whether a core is quiet at the end of this tide. -/
def State.isQuiet (s : State) (c : Nat) : Bool :=
  let k := s.core c
  k.mode == .halted && k.drained && k.exposedCount == 0 && k.settledBy s.tide && s.scansDone c

/-- Whether a core will be quiet at the end of this tide: it is, or its HALT issues now and nothing else of
it remains (R122). -/
def State.quietBy (s : State) (c : Nat) : Bool :=
  let k := s.core c
  let g := k.group s.tide
  k.mode == .quiet || (k.settledBy s.tide && s.scansDone c && !k.stream.fetching &&
    (k.mode == .halted || (k.mode == .running && k.stopAt.isNone && g.any (fun x => isHalt x.2.2.word))) &&
    g.all (fun x => isHalt x.2.2.word || isWait x.2.2.word || isGate x.2.2.word) &&
    (k.stream.queues.toList.map (fun q => q.words.length)).sum == g.length)

/-! ### Untimed work at the end of a gang (R60, R118, R463) -/

/-- The tide at which the last core of a stopping gang stopped. -/
def Task.frozenAt (k : Task) (tide : Nat) : Nat := (k.stop.map Stop.allFrozen).getD tide

/-- Whether commands of some cores that have been cut short are still under way. -/
def State.commandsLeft (s : State) (cores : List Nat) : Bool := cores.any (fun c => !(s.core c).cmds.isEmpty)

/-- The releases of some cores that a stop has put off wait only for their acknowledgements again. -/
def State.unpark (s : State) (cores : List Nat) : State :=
  s.modCores cores (fun k => { k with reqs := k.reqs.map (fun r => { r with parked := false }) })

/-- GANG_END (R113, R463): every core is quiet, or a fault, a watchdog or the bound of R114 has ended the
task and its cores have stopped. The commands of a task that has failed end first, and its writes are accepted (R60,
R438, R463). -/
def execGangEnd (task : Nat) (s : State) : Host.Outcome State Fault Refusal :=
  .next (match s.task? task with
    | none => s
    | some k =>
      if !(k.state == .running || (k.state == .ending && k.endTide.isNone && !k.cores.isEmpty)) then s
      else
        let failed := k.verdict.isSome
        let s := if failed then ((k.cores.foldl (fun s c => s.endCommands 0x07 c) s).cancelScans task).unpark k.cores
          else s
        if failed && (s.commandsLeft k.cores || k.cores.any s.writesLeft) then s.due (s.tide + 1) (.gangEnd task) 0
        else
        let s := s.releaseCores task k
        let end_ := if failed then k.frozenAt s.tide else k.endTide.getD s.tide
        s.modTask task (fun k => { k with
          state := .ending, endTide := some end_, stop := none, preempt := false }))

/-- Whether a gang's query records come to nothing: it is stopped for pre-emption, its task has ended, or a core
that has faulted has no handler (R118, R142, R463). -/
def State.recordsEnd (s : State) (k : Task) : Bool :=
  k.state == .stopping || (k.state == .running && (k.verdict.isSome || (match k.stop with
    | some st => st.kind.frames && !st.pending s.tide &&
        k.cores.any (fun c => (s.core c).ownFault && !wbit (s.core c).trapvec 31)
    | none => false)))

/-- Whether a gang has ended of itself (R113). -/
def State.gangQuiet (s : State) (k : Task) : Bool :=
  k.state == .running && k.verdict.isNone && k.stop.isNone && k.cores.all (fun c => (s.core c).mode == .quiet)

/-- Whether a task's record may be written (R60): its near-memory requests are acknowledged and its page
scans are over. -/
def State.recordDue (s : State) (t : Nat) (k : Task) : Bool :=
  k.state == .ending && k.endTide.isSome && !s.scans.any (fun x => x.task == t)
    && !s.late.any (fun w => w.task == t)
    && s.cores.all (fun c => !c.near.any (fun r => r.task == some t && !r.acked))

/-! ### Watchdogs (R113 to R115, R131) -/

def State.wdogOf (s : State) (c : Nat) : Nat := (s.part (s.core c).part).watchdog

/-- A watchdog ends the task of a core (R131). -/
def State.expire (s : State) (c : Nat) : State := s.fail c 0x1B (BitVec.ofNat 32 (s.core c).vid)

/-- Whether a core has waited at a gate for longer than the watchdog, arrived at it or kept from arriving by a
queue that lacks its GATE (R295). -/
def State.waitedLong (s : State) (c : Nat) (g : Gate) : Bool :=
  match g.arrived.or g.waits with
  | some a => decide (a + s.wdogOf c < s.tide)
  | none => false

/-- Whether a core has waited too long at its kernel's gate or at its handler's. -/
def State.gateLate (s : State) (c : Nat) : Bool :=
  s.waitedLong c (s.core c).stream.gate || s.waitedLong c (s.core c).kernelGate

/-- The code of a gate class in FINFO (R140). -/
def GateClass.code : GateClass → Nat
  | .plain => 0
  | .bar .. => 1
  | .waitf .. => 2
  | .rlk .. => 3
  | .wlk .. => 4
  | .rcon .. => 5
  | .take .. => 6
  | .talign .. | .talignM .. => 7

/-- GATE_WATCHDOG_EXPIRY (R131, R138, R140): the core records its own fault and the task ends; PRECISE is
0 (log 27). -/
def execGateWatchdogExpiry (core : Nat) (s : State) : Host.Outcome State Fault Refusal :=
  let x := s.core core
  let g := if s.waitedLong core x.stream.gate then x.stream.gate else x.kernelGate
  .next ((s.modCore core (fun k => if k.ownFault then k else
    { k with fcause := fcauseOf false true g.eng 0x1B, finfo := w64 g.cls.code })).expire core)

/-- Whether a core has halted and has not been quiet within the watchdog. -/
def State.haltLate (s : State) (c : Nat) : Bool :=
  let k := s.core c
  k.haltTide != 0 && !k.wentQuiet && decide (k.haltTide + s.wdogOf c < s.tide)

/-- HALT_WATCHDOG_EXPIRY (R113). -/
def execHaltWatchdogExpiry (core : Nat) (s : State) : Host.Outcome State Fault Refusal :=
  .next (s.expire core)

/-- Whether a slip has lasted longer than the watchdog. -/
def State.slipLate (s : State) (k : Task) : Bool :=
  match k.stop with
  | some st => st.kind == .slip && !st.pending s.tide && decide (st.since + (s.part k.part).watchdog < s.tide)
  | none => false

/-- SLIP_WATCHDOG_EXPIRY (R115). -/
def execSlipWatchdogExpiry (task : Nat) (s : State) : Host.Outcome State Fault Refusal :=
  .next (match s.task? task with
    | some k => s.expire ((k.stop.map Stop.core).getD (k.cores.headD 0))
    | none => s)

/-- RUNMAX_EXPIRY (R114). -/
def execRunmaxExpiry (task : Nat) (s : State) : Host.Outcome State Fault Refusal :=
  .next (match s.task? task with
    | some k => s.fail (k.cores.headD 0) 0x1B (BitVec.ofNat 32 ((s.virtual k.part (k.cores.headD 0)).getD 0))
    | none => s)

/-- Whether a non-pre-emptible gang has run for its bound. -/
def Task.runLate (k : Task) (tide : Nat) : Bool :=
  k.np && k.start + wbits (k.word 3) 31 0 * 1024 ≤ tide

/-- The gangs that are not quiet at the end of their bound (R114), by the end of this tide. -/
def State.overruns (s : State) : List Nat :=
  (s.tasks.filter (fun e => e.2.state == .running && e.2.runLate s.tide && !e.2.cores.all s.quietBy)).map Prod.fst

/-- The watchdogs of a running task that expire at this tide. -/
def State.expiries (s : State) (t : Nat) (k : Task) : List Instr :=
  if k.state ≠ .running then []
  else
    (if s.slipLate k then [.slipWatchdogExpiry t] else []) ++
    (k.cores.filter s.haltLate).map Instr.haltWatchdogExpiry ++
    (k.cores.filter s.gateLate).map Instr.gateWatchdogExpiry

/-! ### The pre-emption stop (R118) -/

/-- A gang stopped as a pre-emption stop stops it: the freeze starts at the anchor, commands end with a
status and query pages are cancelled. -/
def State.stopGang (s : State) (t : Nat) (k : Task) (status : Nat) : State :=
  match k.cores with
  | [] => s
  | anchor :: others =>
    let last := others.foldl (fun m d => Nat.max m (s.tide + freezeLag anchor d)) s.tide
    let st : Stop := { kind := .preempt, f := s.tide, plane := s.tide + k.h, allFrozen := last, core := anchor
                       since := s.tide }
    let s := s.cancel (fun d => concernsGang t d.ev || (match d.ev with
      | .translationWalkDone c => k.cores.contains c
      | .freezeArrival c => k.cores.contains c
      | _ => false))
    let s := (s.modCores k.cores (fun c => { c with walk := none })).setTask t { k with
      state := .stopping, preempt := false, stop := some st }
    let s := others.foldl (fun s d => s.due (s.tide + freezeLag anchor d) (.freezeArrival d) 0)
      (s.tellDies anchor others)
    let s := if (s.core anchor).stoppable then s.freezeCore anchor st.plane false else s
    let s := (k.cores.foldl (fun s c => s.endCommands status c) s).cancelScans t
    s.due (last + 16) (.coreRelease t) 0

/-- Whether a stop that has been asked for may begin (R117, R122). -/
def State.stopBegins (s : State) (k : Task) : Bool :=
  k.preempt && k.state == .running && !k.shielded && !k.cores.all s.quietBy &&
  (match k.stop with
    | some st => st.pending s.tide || !(st.kind.frames)
    | none => true)

/-- PREEMPTION_STOP (R118). -/
def execPreemptionStop (task : Nat) (s : State) : Host.Outcome State Fault Refusal :=
  .next (match s.task? task with
    | some k => if k.state = .running then s.stopGang task k 0x04 else s
    | none => s)

/-- The restart header at a stop (R119). -/
def State.writeStopHeader (s : State) (t : Nat) (k : Task) : State :=
  if k.ckaddr = 0 then s else (s.writeCounts t k).writeArea t k 24 (bytesOfWords [w64 k.lost])

/-- CORE_RELEASE (R118): the cores are released, and the task is parked, or ends with the verdict that a
reset has given it. -/
def execCoreRelease (task : Nat) (s : State) : Host.Outcome State Fault Refusal :=
  .next (match s.task? task with
    | none => s
    | some k =>
      if k.state ≠ .stopping then s
      else
        let status := if k.verdict.isSome then 0x07 else 0x04
        let end_ := k.frozenAt s.tide
        let s := k.cores.foldl (fun s c => s.endCommands status c) s
        if s.commandsLeft k.cores then s.due (s.tide + 1) (.coreRelease task) 0
        else
        let s := (s.releaseCores task k).modCores k.cores Core.emptyHeap
        if k.verdict.isSome then s.setTask task { k with state := .ending, endTide := some end_, stop := none }
        else
          let base := if k.lastc = 0 then k.start else k.lastc
          let k := { k with
            state := .parked, cores := [], stop := none, preempt := false, shielded := false
            endTide := some end_, placement := none, preempts := k.preempts + 1, lost := k.lost + (end_ - base) }
          (s.setTask task k).writeStopHeader task k)

end Sys2Proof.Machine
end

