-- ==== Sys2Proof/Machine/Boot.lean ====
section
/-!
DEFINITION. The package as a whole: reset and bring-up (R17, R23 to R25), recovery (R24, R50), the tide's
comparison (R18), the power limit (R20, R49) and the thermal responses (R22).
-/

namespace Sys2Proof.Machine

/-! ### Bring-up (R23, R25) -/

/-- A bit for each number below n. -/
def bitsOf (n : Nat) (f : Nat → Bool) : BitVec n :=
  BitVec.ofNat n ((List.range n).map (fun i => if f i then 2 ^ i else 0)).sum

/-- The dies that bring-up finds present: a die whose stack fails is absent. -/
def presentDies (e : BootEnv) : BitVec 4 :=
  bitsOf 4 (fun i => e.diesOk.getLsbD i && e.stacksOk.getLsbD (2 * i) && e.stacksOk.getLsbD (2 * i + 1))

/-- The stacks of the dies that are present. -/
def stacksOf (dies : BitVec 4) : BitVec 8 := bitsOf 8 (fun i => dies.getLsbD (i / 2))

/-- With no die present the package stays at the phase that failed, and reports it (R25). -/
def State.stuckAt (s : State) (phase : Nat) : State :=
  { s with boot := .phase phase, replies := s.replies ++ [.management phase] }

/-- Phases 3 to 8 on a verified image: it runs; with no die present the package stays; a failing alignment is
fatal; then the tide has its origin and the package is ready. No rule gives the time that the phases take; the
model takes none (log 48). -/
def State.bringUp (s : State) (e : BootEnv) (image : List Byte) : State :=
  let s := { s with image := image }
  if e.diesOk = 0 then s.stuckAt 4
  else
    let dies := presentDies e
    let s := { s with diepres := dies, stkpres := stacksOf dies }
    if dies = 0 then s.stuckAt 5
    else if !e.tideOk then { s with boot := .fatal }
    else { s with tide := 0, drawn := 0, drawnAt := 0, stationUp := e.stationsUp, portUp := e.portsUp, boot := .ready }

/-- The version of an image; the model reads it from the image's first word (log 7). -/
def imageVersion (image : List Byte) : Nat := natOfBytes (image.take 4)

/-- The version check of phase 2 (R23), against the fused minimum. -/
def versionOk (image : List Byte) : Bool := Config.fusedMinimum.toNat ≤ imageVersion image

/-- Phase 2 (R23): the image's signature, whose check is the silicon's, and its version. -/
def imageOk (image : List Byte) : Bool := Config.signed image && versionOk image

/-- The package as a package reset leaves it before bring-up: what lies outside the package, what it has
told the outside, the flash, and the count of fresh numbers stand; the remap tables of the banks stand
(phase 5). -/
def State.beforeBoot (s : State) : State :=
  { State.reset with
    host := s.host, msix := s.msix, outgoing := s.outgoing, replies := s.replies
    poison := s.poison, corrected := s.corrected, flash := s.flash, draw := s.draw, celsius := s.celsius
    banks := (s.banks.map (fun b => (b.1, ({ spares := b.2.spares } : Bank)))).filter (fun b => b.2 != {})
    inputs := s.inputs, strokes := s.strokes, fresh := s.fresh, resets := s.resets + 1, now := s.now }

/-- PACKAGE_RESET (R23). -/
def execPackageReset (env : BootEnv) (s : State) : Host.Outcome State Fault Refusal :=
  let s := s.beforeBoot
  .next (if imageOk s.flash then s.bringUp env s.flash
    else { s with boot := .recovery, rcvwait := true })

/-! ### Recovery (R24, R50) -/

/-- RCVGO (R50) starts the DMA read, which ends some tc later. Outside recovery wait no rule gives a write of it an
effect; the model gives it none (log 48). -/
def execRcvgo (v : W64) (s : State) : Host.Outcome State Fault Refusal :=
  .next (if s.boot ≠ .recovery || !wbit v 0 || s.rcvcode = 1 || s.rcvcode = 2 then s
    else if s.rcvlen.toNat < 2 ^ 12 || 2 ^ 26 < s.rcvlen.toNat then { s with rcvcode := 6 }
    else
      let (d, s) := s.later 1
      let (n, s) := s.number
      { s with rcvcode := 1 }.due d (.recoveryImageRead (Config.recoveryRead n)) 0)

/-- The verification of a replacement image, which repeats phase 2 (R24): an accepted one is written to flash and
runs. -/
def State.verify (s : State) (e : BootEnv) : State :=
  if !Config.signed s.rcvimage then { s with rcvcode := 4 }
  else if !versionOk s.rcvimage then { s with rcvcode := 5 }
  else { s with rcvcode := 3, rcvwait := false, flash := s.rcvimage }.bringUp e s.rcvimage

/-- RECOVERY_IMAGE_READ (R24, R50): the DMA has read the image, which is verified some tc later. -/
def execRecoveryImageRead (r : RecoveryRead) (s : State) : Host.Outcome State Fault Refusal :=
  .next (if s.boot ≠ .recovery then s
    else if s.rcvcode = 2 then s.verify r.env
    else if s.rcvcode ≠ 1 then s
    else if !r.dmaOk then { s with rcvcode := 7 }
    else
      let (d, s) := s.later 1
      { s with rcvcode := 2, rcvimage := s.host.read s.rcvaddr.toNat s.rcvlen.toNat }.due d
        (.recoveryImageRead r) 0)

/-! ### Tasks that the package ends (R18, R22) -/

/-- The gangs of some tasks are terminated, with no fault of theirs: what DETAIL holds is not stated. A gang that is
Stopping is left to its stop (DESIGN CHOICE, log 58). -/
def State.terminate (s : State) (which : Task → Bool) : State :=
  s.tasks.foldl (fun s e =>
    if e.2.state == .running && which e.2 then
      let (x, s) := s.unstated
      s.fail (e.2.cores.headD 0) 0 (BitVec.ofNat 32 x)
    else s) s

/-- TIDE_COMPARE (R18): dies that disagree are marked, and their gangs end. -/
def execTideCompare (bad : BitVec 4) (s : State) : Host.Outcome State Fault Refusal :=
  s.whenReady (fun s =>
    { s with misal := s.misal ||| bad }.terminate (fun k => k.cores.any (fun c => bad.getLsbD (dieOf c))))

/-! ### Power (R20, R49) -/

/-- PLIMIT_WRITE (R49): a limit below the average of the last window begins a hold. -/
def execPlimitWrite (v : W64) (s : State) : Host.Outcome State Fault Refusal :=
  s.whenReady (fun s =>
    let w := wbits v 15 0
    if w < 600 || 2000 < w then s.configError 0x10
    else { s with plimit := BitVec.ofNat 16 w, phold := s.phold || decide (w < s.watts) })

/-- POWER_WINDOW (R20). -/
def execPowerWindow (watts : Nat) (s : State) : Host.Outcome State Fault Refusal :=
  s.whenReady (fun s => { s with watts := watts, phold := decide (s.plimit.toNat < watts) })

/-! ### Cooling (R22) -/

/-- THERMAL_SAMPLE (R22): the hottest of the junction sensors. -/
def execThermalSample (celsius : Nat) (s : State) : Host.Outcome State Fault Refusal :=
  .next (if 120 ≤ celsius then { s with powered := false }
    else if s.boot ≠ .ready then s
    else if 95 ≤ celsius then
      let s := if s.thold then s else { s with thold := true }.harbourEvent 0x05
      if 105 ≤ celsius then { s with ttrip := true }.terminate (fun _ => true) else s
    else if celsius < 90 then { s with thold := false }
    else s)

end Sys2Proof.Machine
end

