-- ==== Sys2Proof/Machine/Host.lean ====
section
/-!
DEFINITION. Registers of the host interface (spec/03): writes with no step of their own (R7, R48 to R51), the
security mailbox (R66 to R69), event rings (R72, R73), invalidation (R175), core retirement (R74), accesses
through BAR2 (R61), and what registers read as.
-/

namespace Sys2Proof.Machine

/-! ### The security mailbox (R67 to R69) -/

/-- Bytes cut or filled with zeros to a length. -/
def fitBytes (n : Nat) (bs : List Byte) : List Byte := (bs ++ List.replicate n 0).take n

/-- The step of a mailbox command. -/
def mailEvent (fn : Nat) : Nat → Option Instr
  | 1 => some (.attest fn)
  | 2 => some (.loadkey fn)
  | 3 => some (.clearkey fn)
  | 4 => some (.getcert fn)
  | _ => none

/-- The partition that a mailbox names. -/
def State.mailPart (s : State) (fn : Nat) : Option Nat :=
  if fn = 0 then some (s.func 0).mbpart else s.partOfVf fn

/-- A write of a command code. -/
def State.mailCommand (s : State) (fn code : Nat) : State :=
  let f := s.func fn
  if f.mbbusy then s
  else
    match s.mailPart fn, mailEvent fn code with
    | none, _ => s.setFunc fn { f with mbresult := 7 }
    | some _, none => s.setFunc fn { f with mbresult := 6 }
    | some p, some ev =>
      let (d, s) := s.later 1
      (s.setFunc fn { f with mbbusy := true, mbjob := some ⟨code, p, f.mbin⟩ }).due d ev 0

/-- The end of a command with its result. -/
def Func.mailDone (f : Func) (result : Byte) : Func := { f with mbbusy := false, mbresult := result, mbjob := none }

/-- A step of a mailbox whose command, of this code, is running. -/
def State.mailStep (s : State) (fn code : Nat) (f : MailJob → Func → State) : Host.Outcome State Fault Refusal :=
  .next (match (s.func fn).mbjob with
    | some j => if j.code = code then f j (s.func fn) else s
    | none => s)

/-- The key slots that a partition owns. Slot 0 counts where its owner byte names the partition: no rule says
otherwise (log 48). -/
def State.slotsOwned (s : State) (p : Nat) : Nat := s.owners.countP (fun e => e.2.toNat == 128 + p)

/-- An attestation report but for its signature (R69). -/
def State.reportBody (s : State) (p : Nat) (nonce : List Byte) : List Byte :=
  let k := s.part p
  bytesOfNat 4 1 ++ bytesOfNat 4 p ++ nonce ++ bytesOfNat 4 (imageVersion s.image)
    ++ bytesOfNat 4 Config.fusedMinimum.toNat ++ fitBytes 48 (Config.sha384 s.image)
    ++ bytesOfNat 4 k.pcoh.toNat ++ bytesOfNat 4 k.ranges.length ++ bytesOfWords k.rng.toList
    ++ bytesOfNat 8 (s.hmodeOf p).toNat ++ bytesOfNat 4 (s.slotsOwned p) ++ bytesOfNat 4 3
    ++ fitBytes 96 (Config.ephemeralKey s.resets) ++ fitBytes 48 Config.identityDigest

/-- ATTEST (R67, R69). -/
def execAttest (fn : Nat) (s : State) : Host.Outcome State Fault Refusal :=
  s.mailStep fn 1 (fun j f =>
    let nonce := j.params.read 0 48
    let body := s.reportBody j.part nonce
    let report := body ++ fitBytes 96 (Config.signature (Config.sha384 body))
    s.setFunc fn { f.mailDone 0 with mbout := f.mbout.write 0 report, nonce := some nonce })

/-- Why a command may not act on a slot (R68). -/
def State.slotFault (s : State) (p slot : Nat) : Option Byte :=
  if slot = 0 then some 2
  else if 2048 ≤ slot || (Sparse.get 0 s.owners slot).toNat ≠ 128 + p then some 1
  else none

/-- The result of a key load, and the key (R67). -/
def State.keyLoad (s : State) (j : MailJob) (f : Func) : Except Byte (List Byte) :=
  let pub := j.params.read 0x40 96
  match s.slotFault j.part (natOfBytes (j.params.read 0 2)), f.nonce with
  | some e, _ => .error e
  | none, nonce =>
    if !Config.onCurve pub then .error 4
    else
      match nonce with
      | none => .error 5
      | some n =>
        let kek := (Config.sha384 (Config.sharedPoint s.resets pub ++ n)).take 32
        match Config.unwrapKey kek (j.params.read 0xA0 72) with
        | some key => .ok key
        | none => .error 3

/-- LOADKEY (R67). -/
def execLoadkey (fn : Nat) (s : State) : Host.Outcome State Fault Refusal :=
  s.mailStep fn 2 (fun j f =>
    match s.keyLoad j f with
    | .error e => s.setFunc fn (f.mailDone e)
    | .ok key => { s with keys := s.keys.put (natOfBytes (j.params.read 0 2)) key }.setFunc fn (f.mailDone 0))

/-- CLEARKEY (R67). -/
def execClearkey (fn : Nat) (s : State) : Host.Outcome State Fault Refusal :=
  s.mailStep fn 3 (fun j f =>
    let slot := natOfBytes (j.params.read 0 2)
    match s.slotFault j.part slot with
    | some e => s.setFunc fn (f.mailDone e)
    | none => { s with keys := s.keys.erase slot }.setFunc fn (f.mailDone 0))

/-- GETCERT (R67). -/
def execGetcert (fn : Nat) (s : State) : Host.Outcome State Fault Refusal :=
  s.mailStep fn 4 (fun _ f =>
    let chain := Config.certificateChain.take 2040
    s.setFunc fn { f.mailDone 0 with
      mbout := (f.mbout.write 0 (bytesOfNat 4 chain.length)).write 8 chain })

/-- A byte of the owner table written (R66): a change of a slot's owner erases its key. -/
def State.setOwner (s : State) (slot : Nat) (v : Byte) : State :=
  if Sparse.get 0 s.owners slot = v then s
  else { s with owners := s.owners.set 0 slot v, keys := s.keys.erase slot }

/-- KEY_OWNER_WRITE (R66). -/
def execKeyOwnerWrite (slot : Nat) (v : Byte) (s : State) : Host.Outcome State Fault Refusal :=
  s.whenReady (fun s => s.setOwner slot v)

/-- The bytes of a word, each with its number. -/
def numbered (v : W64) : List (Nat × Byte) := (bytesOfNat 8 v.toNat).zipIdx.map (fun x => (x.2, x.1))

/-! ### Writes of registers with no step of their own (R7) -/

/-- A write of an event register (R73). -/
def Func.writeEvents (f : Func) (off : Nat) (v : W64) : Func :=
  match off with
  | 0x00 => { f with eqbase := setBits v 11 0 0 }
  | 0x18 => { f with eqhead := v.setWidth 32 }
  | 0x28 => { f with eqovf := v.setWidth 32 }
  | _ => f

/-- A write within a mailbox (R68). -/
def State.writeMail (s : State) (fn off : Nat) (v : W64) : State :=
  if off = 0 then s.mailCommand fn (wbits v 7 0)
  else if off = 0x10 then s.modFunc fn (fun f => { f with mbpart := wbits v 4 0 })
  else if 0x100 ≤ off && off < 0x800 then
    s.modFunc fn (fun f => { f with mbin := f.mbin.write (off - 0x100) (bytesOfNat 8 v.toNat) })
  else s

/-- A write of the recovery block (R50). -/
def State.writeRecovery (s : State) (off : Nat) (v : W64) : State :=
  match off with
  | 0x1000 => { s with rcvaddr := setBits v 11 0 0 }
  | 0x1008 => { s with rcvlen := v.setWidth 32 }
  | _ => s

/-- A write of PF0's BAR0 (R48, R49, R61). In the owner table and the binding table each byte is a write of its
own entry; an access of 1, 2 or 4 B is the steps of its bytes. -/
def State.writePf0 (s : State) (off : Nat) (v : W64) : State :=
  if off = 0x18 then { s with bremap := wbit v 5, route := wbit v 4 }
  else if off = 0x20 then { s with iberr := v.setWidth 32 }
  else if off = 0x28 then { s with ibsnd := v.setWidth 32 }
  else if 0x2000 ≤ off && off < 0x4000 then
    if off % 256 = 0xB8 then s.modPart ((off - 0x2000) / 256) (fun p => { p with perr := v.setWidth 32 }) else s
  else if 0x4000 ≤ off && off < 0x4800 then
    (numbered v).foldl (fun s x => s.setOwner (off - 0x4000 + x.1) x.2) s
  else if 0x20000 ≤ off && off < 0x28000 then
    (numbered v).foldl (fun s x => s.setBinding (off - 0x20000 + x.1) x.2) s
  else if 0x8000 ≤ off && off < 0x9000 then s.writeMail 0 (off - 0x8000) v
  else if 0x9000 ≤ off && off < 0x9030 then s.modFunc 0 (fun f => f.writeEvents (off - 0x9000) v)
  else s.writeRecovery off v

/-- A write of a virtual function's BAR0 (R51, R175). -/
def State.writeVf (s : State) (vf off : Nat) (v : W64) : State :=
  if 0x100 ≤ off && off < 0x130 then s.modFunc vf (fun f => f.writeEvents (off - 0x100) v)
  else if off = 0x200 then s.modFunc vf (fun f => { f with ovbase := setBits v 5 0 0 })
  else if off = 0x300 then s.modFunc vf (fun f => { f with xiva := w64 (wbits v 56 16 * 2 ^ 16) })
  else if off = 0x308 then s.modFunc vf (fun f => { f with xicnt := v.setWidth 32 })
  else if 0x400 ≤ off && off < 0x1400 then s.writeMail vf (off - 0x400) v
  else s

/-- REGISTER_WRITE (R7): 8 bytes at an aligned offset. In recovery wait PF0 presents its recovery registers
alone (R24). -/
def execRegisterWrite (fn off : Nat) (v : W64) (s : State) : Host.Outcome State Fault Refusal :=
  .next (if off % 8 ≠ 0 || 256 < fn || !s.presents fn then s
    else if s.boot = .recovery then s.writeRecovery off v
    else if fn = 0 then s.writePf0 off v
    else s.writeVf fn off v)

/-! ### Event rings (R72, R73) -/

/-- EQSIZE_WRITE (R73). -/
def execEqsizeWrite (fn : Nat) (v : W64) (s : State) : Host.Outcome State Fault Refusal :=
  s.whenReady (fun s =>
    let en := wbit v 31
    let n := wbits v 3 0
    if en && (n < 4 || 12 < n) then s
    else s.modFunc fn (fun f => { f with
      eqen := en, eqlog := n, eqtail := if en then f.eqhead else f.eqtail }))

/-- EVACK (R72): the walk that the event reported is tried again. -/
def execEvack (fn : Nat) (v : W64) (s : State) : Host.Outcome State Fault Refusal :=
  s.whenReady (fun s =>
    (List.range 256).foldl (fun s c =>
      match (s.core c).walk with
      | some (_, _, _, some seq) =>
        if seq = wbits v 31 0 && (s.taskOf c).map Task.vf = some fn
            && !s.agenda.any (fun d => d.ev == .translationWalkDone c) then
          let (d, s) := s.later 1
          s.due d (.translationWalkDone c) 0
        else s
      | _ => s) s)

/-! ### Invalidation (R175) -/

/-- Whether a page lies in the range of an invalidation, as XIGO named it: pages of 64 KiB, none for all. -/
def Func.inRange (f : Func) (e : TlbEntry) : Bool :=
  f.xpages == 0 || (decide (e.va < f.xfirst + f.xpages * 2 ^ 16) && decide (f.xfirst < e.va + e.size))

/-- The cores of a partition. -/
def Partition.cores (p : Partition) : List Nat :=
  (List.range 256).filter (fun c => p.pcoh.getLsbD (cohortOf c))

/-- XIGO (R175): the invalidation takes its range from the registers as they stand. The entries are marked once
the words of this tc have issued (R177). -/
def execXigo (vf : Nat) (v : W64) (s : State) : Host.Outcome State Fault Refusal :=
  s.whenReady (fun s =>
    let f := s.func vf
    if f.xbusy || !wbit v 0 then s
    else s.setFunc vf { f with
      xbusy := true, xmark := true, xtasks := [], xfirst := f.xiva.toNat, xpages := f.xicnt.toNat })

/-- Step 1 of R175: the entries of a range are dying, and the tasks that hold translations in it are counted. -/
def State.markRange (s : State) (vf : Nat) : State :=
  let f := s.func vf
  if !f.xmark then s
  else
    match s.partOfVf vf with
    | none => s.setFunc vf { f with xmark := false }
    | some p =>
      let ts := (s.tasks.filter (fun e => e.2.part == p && e.2.pages.any f.inRange)).map Prod.fst
      (s.setFunc vf { f with xmark := false, xtasks := ts }).modCores (s.part p).cores (fun k => { k with
        tlb := k.tlb.map (fun e => if f.inRange e then { e with dying := true } else e) })

/-- The cores whose buffers an invalidation reaches. -/
def State.invalidated (s : State) (vf : Nat) : List Nat :=
  ((s.partOfVf vf).map (fun p => (s.part p).cores)).getD []

/-- Whether an invalidation has nothing more to wait for (R175 step 2). -/
def State.invalidationOver (s : State) (vf : Nat) : Bool :=
  let f := s.func vf
  f.xbusy && !f.xmark && f.xtasks.isEmpty && (s.invalidated vf).all (fun c => (s.core c).tlb.all (fun e =>
    !(e.dying && f.inRange e) || e.count == 0))

/-- INVALIDATION_DONE (R175 step 3). -/
def execInvalidationDone (vf : Nat) (s : State) : Host.Outcome State Fault Refusal :=
  .next (if !s.invalidationOver vf then s
    else
      let f := s.func vf
      (s.modCores (s.invalidated vf) (fun k => { k with
        tlb := k.tlb.filter (fun e => !(e.dying && f.inRange e)) })).setFunc vf
        { f with xbusy := false, xdone := f.xdone + 1 })

/-! ### Core retirement (R74) -/

/-- CORE_RETIREMENT (R74): where the host regenerates routes, it is told, and the partition admits no gang
to the core until it has been started again. -/
def execCoreRetirement (core : Nat) (s : State) : Host.Outcome State Fault Refusal :=
  s.whenReady (fun s =>
    match (List.range 32).find? (fun p => s.route && (s.part p).pcoh.getLsbD (cohortOf core)) with
    | none => s
    | some p =>
      let (x, s) := s.unstated
      let (y, s) := s.unstated
      let s := s.modPart p (fun k => { k with retired := k.retired ++ [core] })
      s.eventAll p 0x02 ((s.virtual p core).getD 0) (w64 x) (w64 y))

/-! ### BAR2 (R51, R61) -/

/-- The runs of an access within 64-byte lines. -/
def lineRuns (off n : Nat) : List (Nat × Nat) :=
  (List.range (n / 64 + 2)).filterMap (fun i =>
    let a := Nat.max off ((off / 64 + i) * 64)
    let e := Nat.min (off + n) ((off / 64 + i + 1) * 64)
    if a < e then some (a, e - a) else none)

/-- Bytes at offsets of a partition's device memory: zero beyond its ranges. -/
def State.bar2Bytes (s : State) (p : Nat) : List (Nat × Nat) → List Byte × State
  | [] => ([], s)
  | (a, n) :: rest =>
    let (bs, s) := s.readOffset p (a / 64 * 64)
    let (more, s) := s.bar2Bytes p rest
    ((bs.drop (a % 64)).take n ++ more, s)

/-- Whether an access through BAR2 waits for a bank that scans (R219). -/
def State.bar2Busy (s : State) (vf off n : Nat) : Bool :=
  !s.scans.isEmpty && ((s.partOfVf vf).any (fun p => (lineRuns off n).any (fun r => s.offsetBusy p (r.1 / 64 * 64))))

/-- BAR2_ACCESS (R51, R61). -/
def execBar2Access (vf off : Nat) (write : Bool) (data : List Byte) (s : State) :
    Host.Outcome State Fault Refusal :=
  s.whenReady (fun s =>
    let runs := lineRuns off data.length
    let answer (x : List Byte × State) : State := { x.2 with replies := x.2.replies ++ [.bar2Read vf x.1] }
    match s.partOfVf vf with
    | none => if write then s else answer (List.replicate data.length 0, s)
    | some p =>
      if write then
        let beyond := runs.any (fun r => (s.dpaOf p r.1).isNone)
        let s := runs.foldl (fun s r => s.writeOffset p r.1 ((data.drop (r.1 - off)).take r.2)) s
        if beyond then s.countError p else s
      else answer (s.bar2Bytes p runs))

/-! ### What registers read as (R7, R49 to R51, R54, R61, R68, R73, R175) -/

/-- A bit as a number. -/
def bit (b : Bool) (i : Nat) : Nat := if b then 2 ^ i else 0

def Func.readEvents (f : Func) (off : Nat) : W64 :=
  match off with
  | 0x00 => f.eqbase
  | 0x08 => w64 (bit f.eqen 31 + f.eqlog)
  | 0x10 => f.eqtail.setWidth 64
  | 0x18 => f.eqhead.setWidth 64
  | 0x28 => f.eqovf.setWidth 64
  | _ => 0

def Func.readMail (f : Func) (off : Nat) : W64 :=
  if off = 8 then w64 (bit f.mbbusy 63 + f.mbresult.toNat)
  else if off = 0x10 then w64 f.mbpart
  else if 0x100 ≤ off && off < 0x800 then w64 (natOfBytes (f.mbin.read (off - 0x100) 8))
  else if 0x800 ≤ off && off < 0x1000 then w64 (natOfBytes (f.mbout.read (off - 0x800) 8))
  else 0

def WorkQueue.config (x : WorkQueue) : W64 :=
  w64 (bit x.en 31 + bit x.loc 30 + bit x.irq 29 + bit x.err 28 + x.log2n * 2 ^ 24 + x.vec)

def PartState.code : PartState → Nat
  | .stopped => 0
  | .running => 1
  | .resetting => 2

/-- A register of a partition block (R61). -/
def Partition.readBlock (p : Partition) (off : Nat) : W64 :=
  if off = 0 then p.pcoh.setWidth 64
  else if 8 ≤ off && off < 0x88 then vget 0 p.rng (off / 8 - 1)
  else if 0x88 ≤ off && off < 0xA8 then BitVec.extractLsb' ((off - 0x88) * 8) 64 p.pvf
  else if off = 0xA8 then w64 (p.wdog.toNat * 2 ^ 32 + p.state.code * 256 + bit p.wq 4 + p.hm.toNat)
  else if off = 0xB8 then p.perr.setWidth 64
  else 0

/-- DEVSTAT (R49). -/
def State.devstat (s : State) : W64 :=
  w64 (bit (s.boot == .ready) 63 + bit s.thold 62 + bit s.phold 61 + bit s.ttrip 60 + s.misal.toNat * 2 ^ 16
    + s.diepres.toNat * 2 ^ 8 + s.stkpres.toNat)

/-- Eight entries of a byte table. -/
def readBytes (m : Sparse Byte) (at_ : Nat) : W64 := w64 (natOfBytes (Sparse.read 0 m at_ 8))

def State.readPf0 (s : State) (off : Nat) : W64 :=
  if off = 0 then w64 (0x4812 * 2 ^ 16 + Config.stepping.toNat * 2 ^ 8)
  else if off = 0x08 then s.devstat
  else if off = 0x10 then s.plimit.setWidth 64
  else if off = 0x18 then w64 (bit s.bremap 5 + bit s.route 4)
  else if off = 0x20 then s.iberr.setWidth 64
  else if off = 0x28 then s.ibsnd.setWidth 64
  else if off = 0x100 then s.kvp.setWidth 64
  else if off = 0x1000 then s.rcvaddr
  else if off = 0x1008 then s.rcvlen.setWidth 64
  else if off = 0x1018 then w64 (s.rcvcode * 16 + bit s.rcvwait 0)
  else if 0x2000 ≤ off && off < 0x4000 then (s.part ((off - 0x2000) / 256)).readBlock (off % 256)
  else if 0x4000 ≤ off && off < 0x4800 then readBytes s.owners (off - 0x4000)
  else if 0x8000 ≤ off && off < 0x9000 then (s.func 0).readMail (off - 0x8000)
  else if 0x9000 ≤ off && off < 0x9030 then (s.func 0).readEvents (off - 0x9000)
  else if 0x20000 ≤ off && off < 0x28000 then readBytes s.bindings (off - 0x20000)
  else 0

/-- What an access of 1, 2, 4 or 8 B, aligned to its size, reads from the byte tables of PF0 (R48). -/
def State.readTable (s : State) (off n : Nat) : Option (List Byte) :=
  if s.boot ≠ .ready || !(n == 1 || n == 2 || n == 4 || n == 8) || off % n ≠ 0 then none
  else if 0x4000 ≤ off && off < 0x4800 then some (Sparse.read 0 s.owners (off - 0x4000) n)
  else if 0x20000 ≤ off && off < 0x28000 then some (Sparse.read 0 s.bindings (off - 0x20000) n)
  else none

/-- VCMAP from a byte on (R51, R52). -/
def Partition.vcmap (p : Partition) (at_ : Nat) : W64 :=
  w64 (natOfBytes ((List.range 8).map (fun i => (p.cohorts.map (BitVec.ofNat 8)).getD (at_ + i) 0xFF)))

def State.readVf (s : State) (vf off : Nat) : W64 :=
  let f := s.func vf
  let p := s.partOfVf vf
  if off = 0 then w64 vf
  else if off = 0x08 then w64 (p.getD 0xFF)
  else if off = 0x10 then w64 ((p.map (fun p => (s.part p).cohorts.length)).getD 0)
  else if 0x20 ≤ off && off < 0x40 then (p.map (fun p => (s.part p).vcmap (off - 0x20))).getD (BitVec.allOnes 64)
  else if off = 0x40 then (p.map s.hmodeOf).getD 0
  else if 0x100 ≤ off && off < 0x130 then f.readEvents (off - 0x100)
  else if off = 0x200 then f.ovbase
  else if off = 0x208 then w64 f.ovsize
  else if off = 0x300 then f.xiva
  else if off = 0x308 then f.xicnt.setWidth 64
  else if off = 0x318 then w64 (bit f.xbusy 63 + f.xdone.toNat)
  else if 0x400 ≤ off && off < 0x1400 then f.readMail (off - 0x400)
  else if 0x4000 ≤ off && off < 0x8000 then
    let x := s.wq vf ((off - 0x4000) / 32)
    match off % 32 with
    | 0x00 => x.base
    | 0x08 => x.config
    | 0x10 => x.tail.setWidth 64
    | 0x18 => x.head.setWidth 64
    | _ => 0
  else 0

/-- The 8 bytes that a function's BAR0 reads as at an aligned offset. -/
def State.readRegister (s : State) (fn off : Nat) : W64 :=
  if off % 8 ≠ 0 || 256 < fn || !s.presents fn then 0
  else if s.boot = .recovery then (if 0x1000 ≤ off && off < 0x1020 then s.readPf0 off else 0)
  else if fn = 0 then s.readPf0 off
  else s.readVf fn off

end Sys2Proof.Machine
end

