-- ==== Sys2Proof/Machine/Partition.lean ====
section
/-!
DEFINITION. Partitions (R61 to R65): their configuration, start and reset; function-level resets (R64); and
KVSPLIT (R216).
-/

namespace Sys2Proof.Machine

/-! ### Configuration (R61, R62, R216) -/

/-- Whether two ranges share a byte. -/
def rangesMeet (a b : Nat × Nat × Bool) : Bool := a.1 < b.1 + b.2.1 && b.1 < a.1 + a.2.1

/-- Whether two partitions have an owner's claim on one cohort, range or function. -/
def Partition.clashes (p q : Partition) : Bool :=
  p.pcoh &&& q.pcoh != 0 || p.pvf &&& q.pvf != 0 || p.ranges.any (fun a => q.ranges.any (rangesMeet a))

/-- A partition block after a write at an offset, where the offset is one of R62's registers. -/
def Partition.written (p : Partition) (off : Nat) (v : W64) : Option Partition :=
  if off = 0 then some { p with pcoh := v.setWidth 32 }
  else if 8 ≤ off && off < 0x88 then some { p with rng := vset p.rng (off / 8 - 1) (setBits v 27 2 0) }
  else if 0x88 ≤ off && off < 0xA8 then
    let at_ := (off - 0x88) * 8
    let word (x : W64) : BitVec 256 := (x.setWidth 256) <<< at_
    some { p with pvf := (p.pvf &&& ~~~(word (BitVec.allOnes 64))) ||| word v }
  else if off = 0xA8 then
    some { p with wdog := v.extractLsb' 32 32, wq := wbit v 4, hm := BitVec.ofNat 4 (wbits v 3 0) }
  else none

/-- Whether a write changes only what may change in every state. -/
def Partition.sameBut (p q : Partition) : Bool :=
  p.pcoh == q.pcoh && p.rng == q.rng && p.pvf == q.pvf && p.wq == q.wq && p.hm == q.hm

/-- PARTITION_CONFIG_WRITE (R62). -/
def execPartitionConfigWrite (p off : Nat) (v : W64) (s : State) : Host.Outcome State Fault Refusal :=
  s.whenReady (fun s =>
    let k := s.part p
    match k.written off v with
    | none => s
    | some new =>
      let others := (List.range 32).filter (fun q => q != p)
      if (k.state != .stopped && !k.sameBut new) || others.any (fun q => (s.part q).clashes new) then
        s.configError (0x2000 + 256 * p + off)
      else s.setPart p new)

/-- KVSPLIT_WRITE (R216). -/
def execKvsplitWrite (v : W64) (s : State) : Host.Outcome State Fault Refusal :=
  s.whenReady (fun s =>
    if s.parts.toList.all (fun p => p.state == .stopped) then s.setSplit (BitVec.ofNat 7 (wbits v 6 0))
    else s.configError 0x100)

/-- PCMD_START (R62, R74, R253): a partition with cohorts and ranges starts; one that runs admits gangs to
its retired cores' replacements again. -/
def execPcmdStart (p : Nat) (s : State) : Host.Outcome State Fault Refusal :=
  s.whenReady (fun s =>
    let k := s.part p
    match k.state with
    | .resetting => s
    | .running => s.setPart p { k with retired := [] }
    | .stopped =>
      if k.pcoh = 0 || k.ranges.isEmpty then s
      else { s with lastStatus := s.lastStatus.filter (fun e => e.1 / 4096 % 32 != p) }.setPart p
        { k with state := .running, retired := [] })

/-! ### The end of a partition's work (R63 steps 1 to 3, R64 steps 1 and 2, R95) -/

/-- A task ended by a reset: a gang that runs is stopped, and its task completes with ABORTED; a task that
waits completes with ABORTED, or with FAILED_PREEMPT where it waits for its restart. -/
def State.abortTask (s : State) (t : Nat) : State :=
  let aborted : Option Verdict := some ⟨0x07, 0, 0⟩
  match s.task? t with
  | none => s
  | some k =>
    match k.state with
    | .ready => s.endWaiting t 0x07
    | .reserved => s.endWaiting t (if k.awaitsRestart then 0x04 else 0x07)
    | .loading => s.endWaiting t 0x07
    | .parked => s.endWaiting t 0x04
    | .running => (s.setTask t { k with verdict := aborted }).stopGang t { k with verdict := aborted } 0x07
    | .stopping => s.setTask t { k with verdict := k.verdict.or aborted }
    | .ending => s
    | .done => s

/-- A graph ended by a reset: it completes with ABORTED once its tasks and copies have ended. -/
def Graph.abort (g : Graph) : Graph :=
  { g with
    aborted := true, state := .draining
    waiting := g.waiting && (nodeType (g.words g.at_) == 1 || nodeType (g.words g.at_) == 2) }

/-- The tasks and graphs of some functions or of a partition end. -/
def State.abortWork (s : State) (tasks : Task → Bool) (graphs : Graph → Bool) : State :=
  let s := { s with graphs := s.graphs.map (fun (e : Nat × Graph) => (e.1, if graphs e.2 then e.2.abort else e.2)) }
  (s.tasks.filter (fun e => tasks e.2)).foldl (fun s e => s.abortTask e.1) s

/-- Steps 1 to 3 of a partition reset. -/
def State.abortPartition (s : State) (p : Nat) : State :=
  let fs := (s.part p).functions
  let s := { s with queues := s.queues.map (fun (e : Nat × WorkQueue) =>
    (e.1, if fs.contains (e.1 / 512) then { e.2 with en := false } else e.2)) }
  let s := { s with queues := s.queues.filter (fun (e : Nat × WorkQueue) => e.2 != ({} : WorkQueue)) }
  (s.abortWork (fun k => k.part == p) (fun g => g.part == p)).abortGroups p

/-- A reset of a partition begins (R62, R63). -/
def State.resetPartition (s : State) (p : Nat) : State :=
  match (s.part p).state with
  | .resetting => s
  | .running => (s.modPart p (fun k => { k with state := .resetting })).abortPartition p
  | .stopped =>
    let s := s.abortPartition p
    { s with now := .event (.partitionResetComplete p) 0 :: s.now }

/-- PCMD_RESET (R63). -/
def execPcmdReset (p : Nat) (s : State) : Host.Outcome State Fault Refusal :=
  s.whenReady (fun s => s.resetPartition p)

/-- FIRMWARE_PARTITION_RESET (R63). -/
def execFirmwarePartitionReset (p : Nat) (s : State) : Host.Outcome State Fault Refusal :=
  s.whenReady (fun s => s.resetPartition p)

/-! ### The end of a reset (R63 steps 4 to 6) -/

/-- Whether nothing of a partition is under way (R63 step 4). -/
def State.partitionDrained (s : State) (p : Nat) : Bool :=
  !s.tasks.any (fun e => e.2.part == p) && !s.graphs.any (fun e => e.2.part == p)
    && !s.msgs.any (fun m => m.part == p) && !s.groups.any (fun g => g.part == p) && !s.late.any (fun w => w.part == p)
    && (s.part p).cores.all (fun c => (s.core c).near.all (fun r => r.acked))
    && !s.acks.any (fun a => (s.part p).cores.contains a.core)
    && !s.gathers.any (fun g => (s.part p).cores.contains g.core)

/-- A core cleared by a reset (R63 step 5), with its rings and segments released (step 3). -/
def Core.wiped (k : Core) : Core :=
  { k with
    scratch := []
    tiles := Vector.replicate 16 {}
    acc := []
    blocks := []
    reuse := none
    rings := Vector.replicate 16 {}
    kvseg := Vector.replicate 16 {} }

/-- The cohort memories of a partition cleared (R63 step 5). -/
def State.clearCohorts (s : State) (p : Nat) : State :=
  { s with cohort := s.cohort.filter (fun e => !(s.part p).pcoh.getLsbD (e.1 / 2 ^ 23)) }

/-- PARTITION_RESET_COMPLETE (R63): what is still under way is ended or awaited; then the state on chip is
cleared and the partition is Stopped. -/
def execPartitionResetComplete (p : Nat) (s : State) : Host.Outcome State Fault Refusal :=
  .next (
    if s.partitionDrained p then
      ((s.modCores (s.part p).cores Core.wiped).clearCohorts p).modPart p (fun k => { k with state := .stopped })
    else if (s.part p).state = .resetting then s.abortPartition p
    else s.due (s.tide + 1) (.partitionResetComplete p) 0)

/-- The partitions whose reset is under way. -/
def State.resetting (s : State) : List Nat := (List.range 32).filter (fun p => (s.part p).state == .resetting)

/-! ### Function-level resets (R64) -/

/-- FLR_VF (R64 steps 1 and 2): the queues of the function are at their reset values, and the work taken
from them ends. -/
def execFlrVf (vf : Nat) (s : State) : Host.Outcome State Fault Refusal :=
  s.whenReady (fun s =>
    if vf = 0 || 256 < vf || (s.func vf).flr then s
    else
      let ts := (s.tasks.filter (fun e => e.2.vf == vf)).map Prod.fst
      let s := s.modFunc vf (fun f => { f with flr := true, flrTasks := ts, mbbusy := false, mbjob := none })
      let s := { s with queues := s.queues.filter (fun e => e.1 / 512 != vf) }
      s.abortWork (fun k => k.vf == vf) (fun g => g.vf == vf))

/-- Whether a function-level reset has nothing more to wait for (R64 step 3). -/
def State.flrOver (s : State) (vf : Nat) : Bool :=
  (s.func vf).flr && !s.tasks.any (fun e => e.2.vf == vf) && !s.graphs.any (fun e => e.2.vf == vf)
    && !s.msgs.any (fun m => (s.func vf).flrTasks.contains m.task && m.core.isSome)
    && !s.late.any (fun w => (s.func vf).flrTasks.contains w.task)

/-- FLR_VF_COMPLETE (R64 step 4): the registers of the function are at their reset values. -/
def execFlrVfComplete (vf : Nat) (s : State) : Host.Outcome State Fault Refusal :=
  .next (if s.flrOver vf then s.modFunc vf (fun f => { nonce := f.nonce }) else s)

/-- FLR_PF0 (R64). -/
def execFlrPf0 (s : State) : Host.Outcome State Fault Refusal :=
  .next (if s.presents 0 then s.modFunc 0 (fun f => { nonce := f.nonce }) else s)

end Sys2Proof.Machine
end

