-- ==== Sys2Proof/Machine/Dispatch.lean ====
section
/-!
DEFINITION. One arm for each constructor of Instr: a direct call of its meaning.
-/

namespace Sys2Proof.Machine

def exec (i : Instr) (s : State) : Host.Outcome State Fault Refusal :=
  match i with
  | .packageReset env => Sys2Proof.Machine.execPackageReset env s
  | .tideCompare bad => Sys2Proof.Machine.execTideCompare bad s
  | .powerWindow watts => Sys2Proof.Machine.execPowerWindow watts s
  | .thermalSample celsius => Sys2Proof.Machine.execThermalSample celsius s
  | .rcvgo v => Sys2Proof.Machine.execRcvgo v s
  | .recoveryImageRead r => Sys2Proof.Machine.execRecoveryImageRead r s
  | .uncorrectableFlit edge timed => Sys2Proof.Machine.execUncorrectableFlit edge timed s
  | .stationDown station => Sys2Proof.Machine.execStationDown station s
  | .inboxWrite addr data => Sys2Proof.Machine.execInboxWrite addr data s
  | .inboxRead addr len => Sys2Proof.Machine.execInboxRead addr len s
  | .inboxAtomic addr => Sys2Proof.Machine.execInboxAtomic addr s
  | .remoteAccess r => Sys2Proof.Machine.execRemoteAccess r s
  | .inboxWriteSend core home => Sys2Proof.Machine.execInboxWriteSend core home s
  | .ethernetTransferComplete transfer delivered => Sys2Proof.Machine.execEthernetTransferComplete transfer delivered s
  | .ethernetPortDown port => Sys2Proof.Machine.execEthernetPortDown port s
  | .plimitWrite v => Sys2Proof.Machine.execPlimitWrite v s
  | .partitionConfigWrite p off v => Sys2Proof.Machine.execPartitionConfigWrite p off v s
  | .pcmdStart p => Sys2Proof.Machine.execPcmdStart p s
  | .pcmdReset p => Sys2Proof.Machine.execPcmdReset p s
  | .firmwarePartitionReset p => Sys2Proof.Machine.execFirmwarePartitionReset p s
  | .partitionResetComplete p => Sys2Proof.Machine.execPartitionResetComplete p s
  | .keyOwnerWrite slot v => Sys2Proof.Machine.execKeyOwnerWrite slot v s
  | .inboxBindingWrite entry v => Sys2Proof.Machine.execInboxBindingWrite entry v s
  | .kvsplitWrite v => Sys2Proof.Machine.execKvsplitWrite v s
  | .attest fn => Sys2Proof.Machine.execAttest fn s
  | .loadkey fn => Sys2Proof.Machine.execLoadkey fn s
  | .clearkey fn => Sys2Proof.Machine.execClearkey fn s
  | .getcert fn => Sys2Proof.Machine.execGetcert fn s
  | .qcfgWrite vf q v => Sys2Proof.Machine.execQcfgWrite vf q v s
  | .qtailWrite vf q v => Sys2Proof.Machine.execQtailWrite vf q v s
  | .qbaseWrite vf q v => Sys2Proof.Machine.execQbaseWrite vf q v s
  | .ovsizeWrite vf v => Sys2Proof.Machine.execOvsizeWrite vf v s
  | .eqsizeWrite fn v => Sys2Proof.Machine.execEqsizeWrite fn v s
  | .evack fn v => Sys2Proof.Machine.execEvack fn v s
  | .xigo vf v => Sys2Proof.Machine.execXigo vf v s
  | .invalidationDone vf => Sys2Proof.Machine.execInvalidationDone vf s
  | .flrVf vf => Sys2Proof.Machine.execFlrVf vf s
  | .flrVfComplete vf => Sys2Proof.Machine.execFlrVfComplete vf s
  | .coreRetirement core => Sys2Proof.Machine.execCoreRetirement core s
  | .bankRemapCommand bank rows => Sys2Proof.Machine.execBankRemapCommand bank rows s
  | .registerWrite fn off v => Sys2Proof.Machine.execRegisterWrite fn off v s
  | .taskTake vf q => Sys2Proof.Machine.execTaskTake vf q s
  | .kernelNode graph => Sys2Proof.Machine.execKernelNode graph s
  | .copyNode graph => Sys2Proof.Machine.execCopyNode graph s
  | .copyNodeComplete copy => Sys2Proof.Machine.execCopyNodeComplete copy s
  | .signalNode graph => Sys2Proof.Machine.execSignalNode graph s
  | .waitNode graph => Sys2Proof.Machine.execWaitNode graph s
  | .waitNodeReread graph => Sys2Proof.Machine.execWaitNodeReread graph s
  | .waitNodeTimeout graph => Sys2Proof.Machine.execWaitNodeTimeout graph s
  | .conditionalNode graph => Sys2Proof.Machine.execConditionalNode graph s
  | .loopNode graph => Sys2Proof.Machine.execLoopNode graph s
  | .joinNode graph => Sys2Proof.Machine.execJoinNode graph s
  | .graphComplete graph => Sys2Proof.Machine.execGraphComplete graph s
  | .spillMove vf q => Sys2Proof.Machine.execSpillMove vf q s
  | .admissionDecision die => Sys2Proof.Machine.execAdmissionDecision die s
  | .reservationCandidate task => Sys2Proof.Machine.execReservationCandidate task s
  | .rowLoadComplete core row => Sys2Proof.Machine.execRowLoadComplete core row s
  | .gangStart task => Sys2Proof.Machine.execGangStart task s
  | .preemptionStop task => Sys2Proof.Machine.execPreemptionStop task s
  | .coreRelease task => Sys2Proof.Machine.execCoreRelease task s
  | .runmaxExpiry task => Sys2Proof.Machine.execRunmaxExpiry task s
  | .haltWatchdogExpiry core => Sys2Proof.Machine.execHaltWatchdogExpiry core s
  | .slipWatchdogExpiry task => Sys2Proof.Machine.execSlipWatchdogExpiry task s
  | .gateWatchdogExpiry core => Sys2Proof.Machine.execGateWatchdogExpiry core s
  | .gangEnd task => Sys2Proof.Machine.execGangEnd task s
  | .taskComplete task => Sys2Proof.Machine.execTaskComplete task s
  | .presenceCheck core => Sys2Proof.Machine.execPresenceCheck core s
  | .slipPlane task => Sys2Proof.Machine.execSlipPlane task s
  | .slipResume task => Sys2Proof.Machine.execSlipResume task s
  | .freezeArrival core => Sys2Proof.Machine.execFreezeArrival core s
  | .handlerStart task => Sys2Proof.Machine.execHandlerStart task s
  | .gangResume task => Sys2Proof.Machine.execGangResume task s
  | .tileReloadComplete core tile => Sys2Proof.Machine.execTileReloadComplete core tile s
  | .gateArrival core => Sys2Proof.Machine.execGateArrival core s
  | .gateOpen core => Sys2Proof.Machine.execGateOpen core s
  | .translationWalkDone core => Sys2Proof.Machine.execTranslationWalkDone core s
  | .globalLoadLanding core req => Sys2Proof.Machine.execGlobalLoadLanding core req s
  | .globalWriteAck core req => Sys2Proof.Machine.execGlobalWriteAck core req s
  | .statusReplyLanding core req => Sys2Proof.Machine.execStatusReplyLanding core req s
  | .coolingReclaim core block => Sys2Proof.Machine.execCoolingReclaim core block s
  | .bankRefresh bank => Sys2Proof.Machine.execBankRefresh bank s
  | .bankRemapComplete bank rows lost => Sys2Proof.Machine.execBankRemapComplete bank rows lost s
  | .phaseOne group c => Sys2Proof.Machine.execPhaseOne group c s
  | .engineCommandStart core cmd => Sys2Proof.Machine.execEngineCommandStart core cmd s
  | .engineCommandRetire core cmd => Sys2Proof.Machine.execEngineCommandRetire core cmd s
  | .chainEntryFetch core slot => Sys2Proof.Machine.execChainEntryFetch core slot s
  | .lockAttempt core => Sys2Proof.Machine.execLockAttempt core s
  | .takeRead core => Sys2Proof.Machine.execTakeRead core s
  | .add idle d a b => Sys2Proof.Machine.execAdd idle d a b s
  | .sub idle d a b => Sys2Proof.Machine.execSub idle d a b s
  | .addi idle d a m => Sys2Proof.Machine.execAddi idle d a m s
  | .mul idle d a b => Sys2Proof.Machine.execMul idle d a b s
  | .mulh idle d a b n => Sys2Proof.Machine.execMulh idle d a b n s
  | .div idle d a b f => Sys2Proof.Machine.execDiv idle d a b f s
  | .and idle d a b => Sys2Proof.Machine.execAnd idle d a b s
  | .or idle d a b => Sys2Proof.Machine.execOr idle d a b s
  | .xor idle d a b => Sys2Proof.Machine.execXor idle d a b s
  | .andi idle d a m => Sys2Proof.Machine.execAndi idle d a m s
  | .ori idle d a m => Sys2Proof.Machine.execOri idle d a m s
  | .xori idle d a m => Sys2Proof.Machine.execXori idle d a m s
  | .shl idle d a b => Sys2Proof.Machine.execShl idle d a b s
  | .shlImm idle d a b h => Sys2Proof.Machine.execShlImm idle d a b h s
  | .shr idle d a b => Sys2Proof.Machine.execShr idle d a b s
  | .shrImm idle d a b h => Sys2Proof.Machine.execShrImm idle d a b h s
  | .sar idle d a b => Sys2Proof.Machine.execSar idle d a b s
  | .sarImm idle d a b h => Sys2Proof.Machine.execSarImm idle d a b h s
  | .min idle d a b n => Sys2Proof.Machine.execMin idle d a b n s
  | .max idle d a b n => Sys2Proof.Machine.execMax idle d a b n s
  | .clz idle d a => Sys2Proof.Machine.execClz idle d a s
  | .popc idle d a => Sys2Proof.Machine.execPopc idle d a s
  | .cmp idle d a b c => Sys2Proof.Machine.execCmp idle d a b c s
  | .sel idle d a b c => Sys2Proof.Machine.execSel idle d a b c s
  | .li idle d m => Sys2Proof.Machine.execLi idle d m s
  | .lsi idle d m => Sys2Proof.Machine.execLsi idle d m s
  | .spt idle d a => Sys2Proof.Machine.execSpt idle d a s
  | .spc idle d a f => Sys2Proof.Machine.execSpc idle d a f s
  | .loop idle c p => Sys2Proof.Machine.execLoop idle c p s
  | .loopReg idle j p => Sys2Proof.Machine.execLoopReg idle j p s
  | .endl idle => Sys2Proof.Machine.execEndl idle s
  | .nop idle => Sys2Proof.Machine.execNop idle s
  | .halt idle => Sys2Proof.Machine.execHalt idle s
  | .bfx idle d a b f => Sys2Proof.Machine.execBfx idle d a b f s
  | .bfi idle d a b => Sys2Proof.Machine.execBfi idle d a b s
  | .gate e idle => Sys2Proof.Machine.execGate e idle s
  | .wait e idle n => Sys2Proof.Machine.execWait e idle n s
  | .guard e r b v => Sys2Proof.Machine.execGuard e r b v s
  | .rmode e idle sb m => Sys2Proof.Machine.execRmode e idle sb m s
  | .vadd idle d a b sb p q r f => Sys2Proof.Machine.execVadd idle d a b sb p q r f s
  | .vsub idle d a b sb p q r f => Sys2Proof.Machine.execVsub idle d a b sb p q r f s
  | .vmul idle d a b sb p q r f => Sys2Proof.Machine.execVmul idle d a b sb p q r f s
  | .vfma idle d a b sb p q r f => Sys2Proof.Machine.execVfma idle d a b sb p q r f s
  | .vmax idle d a b sb p q r => Sys2Proof.Machine.execVmax idle d a b sb p q r s
  | .vmin idle d a b sb p q r => Sys2Proof.Machine.execVmin idle d a b sb p q r s
  | .vabs idle d a p q f => Sys2Proof.Machine.execVabs idle d a p q f s
  | .vneg idle d a p q f => Sys2Proof.Machine.execVneg idle d a p q f s
  | .vand idle d a b sb p q r => Sys2Proof.Machine.execVand idle d a b sb p q r s
  | .vor idle d a b sb p q r => Sys2Proof.Machine.execVor idle d a b sb p q r s
  | .vxor idle d a b sb p q r => Sys2Proof.Machine.execVxor idle d a b sb p q r s
  | .vshl idle d a b sb p q r => Sys2Proof.Machine.execVshl idle d a b sb p q r s
  | .vshr idle d a b sb p q r f => Sys2Proof.Machine.execVshr idle d a b sb p q r f s
  | .vcmp idle d a b sb p q r f => Sys2Proof.Machine.execVcmp idle d a b sb p q r f s
  | .vsel idle d a b sb p q r => Sys2Proof.Machine.execVsel idle d a b sb p q r s
  | .vred idle d a p q f => Sys2Proof.Machine.execVred idle d a p q f s
  | .vscan idle d a p q f => Sys2Proof.Machine.execVscan idle d a p q f s
  | .vbcast idle d a b p q => Sys2Proof.Machine.execVbcast idle d a b p q s
  | .viota idle d b p => Sys2Proof.Machine.execViota idle d b p s
  | .vperm idle d a b sb p q r => Sys2Proof.Machine.execVperm idle d a b sb p q r s
  | .vsortk idle d a b p q r f => Sys2Proof.Machine.execVsortk idle d a b p q r f s
  | .vsegr idle d a b p q r f => Sys2Proof.Machine.execVsegr idle d a b p q r f s
  | .vexp2 idle d a p q => Sys2Proof.Machine.execVexp2 idle d a p q s
  | .vrcp idle d a p q => Sys2Proof.Machine.execVrcp idle d a p q s
  | .vrsq idle d a p q => Sys2Proof.Machine.execVrsq idle d a p q s
  | .vcvt idle d a p q f => Sys2Proof.Machine.execVcvt idle d a p q f s
  | .vrnd idle d a p q => Sys2Proof.Machine.execVrnd idle d a p q s
  | .vmov idle d a p q => Sys2Proof.Machine.execVmov idle d a p q s
  | .vmovScalar idle d b p => Sys2Proof.Machine.execVmovScalar idle d b p s
  | .vtmg idle d a b p q r => Sys2Proof.Machine.execVtmg idle d a b p q r s
  | .mwld idle k r => Sys2Proof.Machine.execMwld idle k r s
  | .mswp idle => Sys2Proof.Machine.execMswp idle s
  | .mfwd idle a k r => Sys2Proof.Machine.execMfwd idle a k r s
  | .mbwd idle a k r => Sys2Proof.Machine.execMbwd idle a k r s
  | .mhad idle k n d => Sys2Proof.Machine.execMhad idle k n d s
  | .mqnt idle k n d => Sys2Proof.Machine.execMqnt idle k n d s
  | .mdrn idle a k r v z => Sys2Proof.Machine.execMdrn idle a k r v z s
  | .mclr idle a r => Sys2Proof.Machine.execMclr idle a r s
  | .tcfg idle x y => Sys2Proof.Machine.execTcfg idle x y s
  | .tzero idle x => Sys2Proof.Machine.execTzero idle x s
  | .trmov idle x y q p => Sys2Proof.Machine.execTrmov idle x y q p s
  | .trmovRows idle x y z => Sys2Proof.Machine.execTrmovRows idle x y z s
  | .tcmov idle x y z => Sys2Proof.Machine.execTcmov idle x y z s
  | .ttr idle x y => Sys2Proof.Machine.execTtr idle x y s
  | .tldv idle x y => Sys2Proof.Machine.execTldv idle x y s
  | .tmkv idle x y => Sys2Proof.Machine.execTmkv idle x y s
  | .dup idle x y => Sys2Proof.Machine.execDup idle x y s
  | .drop idle y => Sys2Proof.Machine.execDrop idle y s
  | .reuse idle y => Sys2Proof.Machine.execReuse idle y s
  | .upd idle x y z => Sys2Proof.Machine.execUpd idle x y z s
  | .updr idle x y z f => Sys2Proof.Machine.execUpdr idle x y z f s
  | .cnt idle x y => Sys2Proof.Machine.execCnt idle x y s
  | .ld idle d b x p g z => Sys2Proof.Machine.execLd idle d b x p g z s
  | .ldg idle d b x g z => Sys2Proof.Machine.execLdg idle d b x g z s
  | .ldt idle d b x p v t => Sys2Proof.Machine.execLdt idle d b x p v t s
  | .ldr idle d b x p n => Sys2Proof.Machine.execLdr idle d b x p n s
  | .ldtr idle d b x => Sys2Proof.Machine.execLdtr idle d b x s
  | .gth idle d b l p => Sys2Proof.Machine.execGth idle d b l p s
  | .ldv idle d b h p => Sys2Proof.Machine.execLdv idle d b h p s
  | .st idle sb b x p z => Sys2Proof.Machine.execSt idle sb b x p z s
  | .stg idle sb b x z => Sys2Proof.Machine.execStg idle sb b x z s
  | .stt idle sb b x p n => Sys2Proof.Machine.execStt idle sb b x p n s
  | .stv idle sb b x => Sys2Proof.Machine.execStv idle sb b x s
  | .sct idle sb b l p => Sys2Proof.Machine.execSct idle sb b l p s
  | .red idle sb b x o => Sys2Proof.Machine.execRed idle sb b x o s
  | .redRow idle sb b x n o => Sys2Proof.Machine.execRedRow idle sb b x n o s
  | .kva idle d b k => Sys2Proof.Machine.execKva idle d b k s
  | .kvr idle d a k o => Sys2Proof.Machine.execKvr idle d a k o s
  | .bws idle sb g => Sys2Proof.Machine.execBws idle sb g s
  | .bwc idle g => Sys2Proof.Machine.execBwc idle g s
  | .bwa idle g => Sys2Proof.Machine.execBwa idle g s
  | .fence idle c o => Sys2Proof.Machine.execFence idle c o s
  | .ldaq idle d a g z c o => Sys2Proof.Machine.execLdaq idle d a g z c o s
  | .strl idle z a b c o => Sys2Proof.Machine.execStrl idle z a b c o s
  | .atom idle d a w p c o => Sys2Proof.Machine.execAtom idle d a w p c o s
  | .cas idle d a b c o => Sys2Proof.Machine.execCas idle d a b c o s
  | .rlk idle a c o => Sys2Proof.Machine.execRlk idle a c o s
  | .rul idle a c o => Sys2Proof.Machine.execRul idle a c o s
  | .wlk idle a c o => Sys2Proof.Machine.execWlk idle a c o s
  | .wul idle a c o => Sys2Proof.Machine.execWul idle a c o s
  | .bar idle a c o => Sys2Proof.Machine.execBar idle a c o s
  | .sigf idle f a c o => Sys2Proof.Machine.execSigf idle f a c o s
  | .waitf idle f a c o => Sys2Proof.Machine.execWaitf idle f a c o s
  | .rres idle d k => Sys2Proof.Machine.execRres idle d k s
  | .rpub idle a k => Sys2Proof.Machine.execRpub idle a k s
  | .rcon idle d k => Sys2Proof.Machine.execRcon idle d k s
  | .rrel idle a k => Sys2Proof.Machine.execRrel idle a k s
  | .fill idle a b c o => Sys2Proof.Machine.execFill idle a b c o s
  | .take idle d a c o => Sys2Proof.Machine.execTake idle d a c o s
  | .spawn idle d a b => Sys2Proof.Machine.execSpawn idle d a b s
  | .rfence idle => Sys2Proof.Machine.execRfence idle s
  | .send idle t h j k l m n o p => Sys2Proof.Machine.execSend idle t h j k l m n o p s
  | .csrr idle d n => Sys2Proof.Machine.execCsrr idle d n s
  | .csrw idle a n => Sys2Proof.Machine.execCsrw idle a n s
  | .trap idle m => Sys2Proof.Machine.execTrap idle m s
  | .reth idle a => Sys2Proof.Machine.execReth idle a s
  | .fmtw idle a => Sys2Proof.Machine.execFmtw idle a s
  | .ecmd idle a => Sys2Proof.Machine.execEcmd idle a s
  | .chl idle a j => Sys2Proof.Machine.execChl idle a j s
  | .chk idle j => Sys2Proof.Machine.execChk idle j s
  | .chkStop idle j => Sys2Proof.Machine.execChkStop idle j s
  | .aqp idle a b => Sys2Proof.Machine.execAqp idle a b s
  | .kvtl idle a l n => Sys2Proof.Machine.execKvtl idle a l n s
  | .kvtu idle n => Sys2Proof.Machine.execKvtu idle n s
  | .bwo idle a d => Sys2Proof.Machine.execBwo idle a d s
  | .opts idle a => Sys2Proof.Machine.execOpts idle a s
  | .ckpt idle a => Sys2Proof.Machine.execCkpt idle a s
  | .talign idle a => Sys2Proof.Machine.execTalign idle a s
  | .talignM idle a => Sys2Proof.Machine.execTalignM idle a s
  | .bar2Access vf off write data => Sys2Proof.Machine.execBar2Access vf off write data s
  | .fetch core => Sys2Proof.Machine.execFetch core s
  | .illegalWord core e code info => Sys2Proof.Machine.execIllegalWord core e code info s
  | .timedFlitArrival => Sys2Proof.Machine.execTimedFlitArrival s
  | .nearMemoryAck => Sys2Proof.Machine.execNearMemoryAck s
  | .flrPf0 => Sys2Proof.Machine.execFlrPf0 s
  | .redRecordApply => Sys2Proof.Machine.execRedRecordApply s
  | .kvAppend => Sys2Proof.Machine.execKvAppend s
  | .kvRescale => Sys2Proof.Machine.execKvRescale s
  | .kvFork => Sys2Proof.Machine.execKvFork s
  | .kvRelease => Sys2Proof.Machine.execKvRelease s
  | .pageScanQueued => Sys2Proof.Machine.execPageScanQueued s
  | .pageScanStart => Sys2Proof.Machine.execPageScanStart s
  | .resultRecordLanding => Sys2Proof.Machine.execResultRecordLanding s
  | .groupOpen => Sys2Proof.Machine.execGroupOpen s
  | .bwsAccept => Sys2Proof.Machine.execBwsAccept s
  | .bwcAccept => Sys2Proof.Machine.execBwcAccept s
  | .bwaAccept => Sys2Proof.Machine.execBwaAccept s
  | .phaseTwo => Sys2Proof.Machine.execPhaseTwo s
  | .groupCompletion => Sys2Proof.Machine.execGroupCompletion s
  | .groupExpiry => Sys2Proof.Machine.execGroupExpiry s
  | .optsStep => Sys2Proof.Machine.execOptsStep s
  | .sendArrival => Sys2Proof.Machine.execSendArrival s
  | .flagSignalArrival => Sys2Proof.Machine.execFlagSignalArrival s
  | .barrierArrival => Sys2Proof.Machine.execBarrierArrival s

end Sys2Proof.Machine
end

