-- ==== Sys2Proof/Machine/Tide.lean ====
section
/-!
DEFINITION. What happens in a tide and in which order: the phases of one tc, each of which finds the steps
that are due (log 4). A step of the machine runs one of them, or, when none is left, turns to the next phase;
after the last phase comes the next tide.
-/

namespace Sys2Proof.Machine

/-! ### Who is concerned -/

/-- The cores of all tasks, in ascending order. -/
def State.busy (s : State) : List Nat :=
  let cs := s.tasks.flatMap (fun e => e.2.cores)
  (List.range 256).filter cs.contains

/-- Acts for steps that take no subject. -/
def acts (is : List Instr) : List Act := is.map (fun i => Act.event i 0)

def State.run (s : State) (xs : List Act) : State := { s with now := s.now ++ xs }

/-! ### From outside -/

/-- Whether a step is one that the outside world brings about. -/
def Instr.outside : Instr → Bool
  | .packageReset _ | .rcvgo _
  | .uncorrectableFlit _ _ | .stationDown _ | .inboxWrite _ _ | .inboxRead _ _ | .inboxAtomic _
  | .remoteAccess _ | .ethernetTransferComplete _ _ | .ethernetPortDown _ | .plimitWrite _
  | .partitionConfigWrite _ _ _ | .pcmdStart _ | .pcmdReset _ | .firmwarePartitionReset _
  | .keyOwnerWrite _ _ | .inboxBindingWrite _ _ | .kvsplitWrite _ | .qcfgWrite _ _ _ | .qtailWrite _ _ _
  | .qbaseWrite _ _ _ | .ovsizeWrite _ _ | .eqsizeWrite _ _ | .evack _ _ | .xigo _ _ | .flrVf _ | .flrPf0
  | .coreRetirement _ | .bankRemapCommand _ _ | .registerWrite _ _ _ | .bar2Access _ _ _ _ => true
  | _ => false

/-- Whether an input is an access to memory, from another package or through BAR2, which is served with those of the
dies. -/
def Instr.toMemory : Instr → Bool
  | .remoteAccess _ => true
  | .bar2Access _ _ _ _ => true
  | _ => false

/-- The function whose BARs an input goes to: the accesses of one function keep their order. -/
def Instr.function : Instr → Option Nat
  | .qcfgWrite vf _ _ | .qtailWrite vf _ _ | .qbaseWrite vf _ _ | .ovsizeWrite vf _ | .eqsizeWrite vf _ | .evack vf _
  | .xigo vf _ | .registerWrite vf _ _ | .bar2Access vf _ _ _ => some vf
  | _ => none

/-- Whether an input waits for a bank that scans (R219). -/
def State.inputBusy (s : State) : Instr → Bool
  | .bar2Access vf off _ data => s.bar2Busy vf off data.length
  | .remoteAccess r => s.remoteBusy r
  | _ => false

/-- The inputs that have come, split into those that a test takes and those that stay, in their order. An input stays
behind one of its function that stays. -/
def splitInputs (take : Instr → Bool) (come : List (Nat × Instr)) : List (Nat × Instr) × List (Nat × Instr) :=
  let x := come.foldl (fun (x : List (Nat × Instr) × List (Nat × Instr) × List Nat) e =>
    if take e.2 && !(Instr.function e.2).any x.2.2.contains then (x.1 ++ [e], x.2)
    else (x.1, x.2.1 ++ [e], x.2.2 ++ (Instr.function e.2).toList)) ([], [], [])
  (x.1, x.2.1)

/-- The inputs of this tide: those at the head of the list whose tides have come. Accesses to memory stay for the
memory's turn, with what comes after them for their function. -/
def State.takeInputs (s : State) : State :=
  let (come, rest) := s.inputs.span (fun e => e.1 ≤ s.tide)
  let x := splitInputs (fun i => !Instr.toMemory i) come
  { s with inputs := x.2 ++ rest }.run (acts ((x.1.map Prod.snd).filter Instr.outside))

/-- The staging of one contributor of a group changed. -/
def State.strikeStage (s : State) (group cont : Nat) (f : Contributor → Contributor) : State :=
  { s with groups := s.groups.map (fun g =>
      if g.id = group then { g with conts := g.conts.mapIdx (fun i x => if i = cont then f x else x) } else g) }

/-- The energy drawn in this window, in watts times tc, counted up to now. -/
def State.meter (s : State) : State :=
  { s with drawn := s.drawn + s.draw * (s.tide - s.drawnAt), drawnAt := s.tide }

/-- One act of the outside. -/
def State.strike (s : State) : Stroke → State
  | .hostWrite a bs => s.writeHost a bs
  | .power w => { s.meter with draw := w }
  | .heat t => { s with celsius := t }
  | .tideSkew d n => { s with skew := vset s.skew d (vget 0 s.skew d + n) }
  | .lineLost l => { s with poison := s.poison ++ [l] }
  | .lineCorrected l => { s with corrected := s.corrected ++ [l] }
  | .rowLost b r => s.setBank b { s.bank b with badRows := (s.bank b).badRows ++ [r] }
  | .headersCorrected b => s.setBank b { s.bank b with fixedHeaders := true }
  | .stageLost g c l => s.strikeStage g c (fun x => { x with bad := x.bad ++ [l] })
  | .stageCorrected g c l => s.strikeStage g c (fun x => { x with fixed := x.fixed ++ [l] })

/-- The acts of the outside that have come, in their order. -/
def State.takeStrokes (s : State) : State :=
  let (now, rest) := s.strokes.partition (fun e => e.1 ≤ s.tide)
  now.foldl (fun s e => s.strike e.2) { s with strokes := rest }

/-! ### What is measured -/

/-- The window over which power is averaged, 1 ms, in tc (R20). -/
def powerWindowTcs : Nat := 600000

/-- The dies whose tide counts differ from the harbour die's. -/
def State.skewed (s : State) : BitVec 4 := bitsOf 4 (fun d => vget 0 s.skew d != 0)

/-- The average power of a window that ends now, in watts, rounded up: it exceeds a limit in whole watts exactly where
the average itself does (R20). -/
def State.average (s : State) : Nat := (s.meter.drawn + (powerWindowTcs - 1)) / powerWindowTcs

/-- What the harbour die measures at this tide: the dies' tide counts every 2^16 tc (R18), the power of each
window of 1 ms (R20), and the junctions every 100 µs (R22). A new window of power begins with nothing drawn. -/
def State.takeMeasures (s : State) : State :=
  let window := s.tide % powerWindowTcs == 0
  let xs : List Instr := if s.tide = 0 then [] else
    (if s.tide % 2 ^ 16 = 0 then [.tideCompare s.skewed] else []) ++
    (if window then [.powerWindow s.average] else []) ++
    (if s.tide % 60000 = 0 then [.thermalSample s.celsius] else [])
  (if window then { s.meter with drawn := 0 } else s).run (acts xs)

/-! ### What has been set for a tide -/

/-- The port over which a step that was set reaches memory, if it is an access to memory, and whether it waits for a
bank that scans (R219). A base die's own steps, and what comes from the harbour die, come after the ports of R213. -/
def State.duePort (s : State) (d : Due) : Option (Nat × Bool) :=
  match d.ev with
  | .phaseTwo => (s.group d.subject).map (fun g => (5, s.scanningIn (s.bankOf (g.dst + 64 * g.line))))
  | .groupCompletion => (s.group d.subject).map (fun g => (5, !g.written && s.targetBusy g.compl 192))
  | .copyNodeComplete n => (s.copies.find? (fun j => j.id == n)).bind (fun j =>
      (s.graphs.find j.graph).map (fun g => (g.die, s.copyBusy g j)))
  | .waitNodeReread n => (s.graphs.find n).map (fun g => (g.die, s.nodeBusy g))
  | .rowLoadComplete c row => ((s.core c).loadingRow row).bind (fun l =>
      (s.task? l.2.task).map (fun k => (dieOf c, s.heldBusy k (k.rowAddr c row) 1024)))
  | .translationWalkDone c => (s.core c).walk.map (fun w => (dieOf c, s.tablesBusy (s.core c).part w.2.1))
  | _ => none

/-- Steps that were set for this tide; those that reach memory come with its turn. -/
def State.takeDue (s : State) : State :=
  let (now, rest) := s.agenda.partition (fun d => d.at_ ≤ s.tide && (s.duePort d).isNone)
  { s with agenda := rest }.run (now.map (fun (d : Due) => Act.event d.ev d.subject))

/-- Messages between cores that arrive, reclaims, and watchdogs. -/
def State.takeArrivals (s : State) : State :=
  let flits := (s.flits.filter (fun f => f.due ≤ s.tide && f.legs.isEmpty)).map (fun f =>
    Act.event .timedFlitArrival f.id)
  let reclaims := s.busy.flatMap (fun c => (s.reclaimsOf c).map (fun b => Instr.coolingReclaim c b))
  let late := s.tasks.flatMap (fun e => s.expiries e.1 e.2)
  s.run (flits ++ acts (reclaims ++ late))

/-! ### Scheduling -/

/-- Candidates for a reservation, and the decisions of R104. -/
def State.takeDecisions (s : State) : State :=
  let candidates := (s.tasks.filter s.becomesCandidate).map (fun e => Instr.reservationCandidate e.1)
  let decisions := if s.tide % 4 = 0 then (List.range 4).map Instr.admissionDecision else []
  if s.tasks.isEmpty then s else s.run (acts (candidates ++ decisions))

/-- Takes and moves of queue records, the loaders, and the placements that are complete. -/
def State.takeRecords (s : State) : State :=
  let s := s.busy.foldl State.loadRow s
  let s := s.tasks.foldl (fun s e =>
    match s.task? e.1 with
    | some k => if s.placed e.1 k then s.place e.1 k else s
    | none => s) s
  let takes := match ((List.range 4).filterMap s.visit).head? with
    | some q => [Instr.taskTake (q / 512) (q % 512)]
    | none => []
  s.run (acts (takes ++ (s.spillsDue).map (fun x => Instr.spillMove x.1 x.2)))

/-! ### Memory and its services -/

/-- Scans that are queued, start, or end; those of gangs whose records come to nothing are cancelled. -/
def State.takeScans (s : State) : State :=
  let s := if s.scans.isEmpty then s
    else (s.tasks.filter (fun e => s.recordsEnd e.2)).foldl (fun s e => s.cancelScans e.1) s
  let subject (i : Instr) (xs : List PageScan) : List Act := xs.map (fun x => Act.event i x.id)
  s.run (subject .pageScanQueued (s.scans.filter s.scanQueues) ++
    subject .pageScanStart (s.scans.filter s.scanStarts) ++
    s.scansDue.map (fun x => Act.event .resultRecordLanding x))

/-- The step in which a base die takes a request. -/
def MsgKind.step : MsgKind → Instr
  | .red .. => .redRecordApply
  | .kvAppend .. => .kvAppend
  | .kvRescale .. => .kvRescale
  | .kvFork .. => .kvFork
  | .kvRelease .. => .kvRelease
  | .groupOpen .. => .groupOpen
  | .bws .. => .bwsAccept
  | .bwc .. => .bwcAccept
  | .bwa .. => .bwaAccept
  | .opts .. => .optsStep

/-- Whether a request goes to another package (R40). -/
def Msg.leaves (m : Msg) : Bool := m.core.isSome && m.remote.isSome

/-- Something that reaches memory at this tide: since when it waits for its bank, its rank among the accesses of its tc,
the port over which it comes (a compute die, or 4 for UALink), its number, and its step. -/
structure Arrival where
  since : Nat
  rank : Nat := 2
  port : Nat
  num : Nat
  act : Act
  deriving DecidableEq, Repr

/-- The order in which arrivals are served (R213, R219): that of arrival, and within a tc that of the ports. -/
def Arrival.before (a b : Arrival) : Bool :=
  decide (a.since < b.since) || (a.since == b.since && (decide (a.rank < b.rank) || (a.rank == b.rank &&
    (decide (a.port < b.port) || (a.port == b.port && decide (a.num ≤ b.num))))))

/-- The rank of an access of a core among those of its tc: an acquire that meets a release at its location comes before
it (row 3 of R213), and after an acquire that it meets itself, as a release (log 53). -/
def GReq.rank (rs : List GReq) (x : GReq) : Nat :=
  let meets (y : GReq) : Bool := y.id != x.id && y.rel && y.op.isStore && y.ready == x.ready && y.sameLocation x
  if !x.acq then 2 else if x.rel then (if rs.any (fun y => meets y && !y.acq) then 1 else 2)
  else if rs.any meets then 0 else 2

/-- The accesses of the cores. -/
def State.accesses (s : State) : List Arrival :=
  let rs := s.busy.flatMap (fun c => ((s.performable c).filter (fun r => !s.spawnBusy c r)).map (fun r => (c, r)))
  rs.map (fun x =>
    { since := x.2.ready, rank := x.2.rank (rs.map Prod.snd), port := dieOf x.1, num := x.2.id, act := x.2.event x.1 })

/-- The requests at base dies. -/
def State.requests (s : State) : List Arrival :=
  (s.msgs.filter (fun m => (s.mayAccept m && !m.leaves) || s.heldReady m)).map (fun m =>
    { since := m.ready, port := (m.core.map dieOf).getD 4, num := m.id, act := .event m.kind.step m.id })

/-- The accesses to memory among the inputs that have come, but for those that wait for a bank, and the inputs that
stay. -/
def State.memoryInputs (s : State) : List (Nat × Instr) × List (Nat × Instr) :=
  let (come, rest) := s.inputs.span (fun e => e.1 ≤ s.tide)
  let x := splitInputs (fun i => Instr.toMemory i && !s.inputBusy i) come
  (x.1, x.2 ++ rest)

/-- The port of an access among the inputs: UALink, or the harbour die. -/
def Instr.port : Instr → Nat
  | .remoteAccess _ => 4
  | _ => 5

def State.remotes (s : State) : List Arrival :=
  s.memoryInputs.1.zipIdx.map (fun e =>
    { since := e.1.1, port := Instr.port e.1.2, num := s.fresh + e.2, act := .event e.1.2 0 })

/-- Untimed accesses of the cores: lines of data, commands that move data or retire, and chains that fetch. -/
def State.untimed (s : State) : List Arrival :=
  s.busy.flatMap (fun c =>
    let k := s.core c
    let of (since num : Nat) (a : Act) : Arrival := { since := since, port := dieOf c, num := num, act := a }
    k.arriving.map (fun a => of a.since a.id (.line c a)) ++
    (k.cmds.filter (fun x => x.movesAt s.tide)).map (fun x => of x.moves.since x.id (.move c x.id)) ++
    (k.cmds.filter Command.isMoved).map (fun x => of x.moves.since x.id (.event (.engineCommandRetire c x.id) 0)) ++
    (s.fetching c).map (fun j => of (k.chain j).ready (k.chain j).after (.event (.chainEntryFetch c j) 0)))

/-- Steps that were set and reach memory, and writes that have waited, whose banks do not scan. -/
def State.setAccesses (s : State) : List Arrival :=
  (s.agenda.filter (fun d => d.at_ ≤ s.tide)).filterMap (fun d =>
    match s.duePort d with
    | some (port, false) => some { since := d.at_, port := port, num := d.subject, act := .event d.ev d.subject }
    | _ => none) ++
  ((s.late.filter (fun w => !s.targetBusy w.target w.size)).map (fun w =>
    { since := w.since, port := w.die, num := w.id, act := .write w.id }))

/-- Whether the node that a graph stands at is a kernel node. -/
def Graph.atKernel (g : Graph) : Bool := nodeType (g.words g.at_) == 1

/-- Nodes of graphs that start, one kernel node at most, and the records of tasks and of graphs. -/
def State.schedulerAccesses (s : State) : List Arrival :=
  let starts := s.graphs.filter (fun e => s.nodeStarts e.2 && !e.2.over s.tide)
  let kernel := (starts.filter (fun e => e.2.atKernel)).take 1
  (starts.filter (fun e => !e.2.atKernel) ++ kernel).map (fun e =>
    { since := e.2.since, port := e.2.die, num := e.1,
      act := .event (nodeEvent e.1 (nodeType (e.2.words e.2.at_))) 0 }) ++
  (s.graphs.filter (fun e => e.2.over s.tide && !s.completionBusy e.2.part e.2.die (e.2.record.getD 2 0))).map (fun e =>
    { since := e.2.since, port := e.2.die, num := e.1, act := .event (.graphComplete e.1) 0 }) ++
  (s.tasks.filter (fun e =>
      s.recordDue e.1 e.2 && !(e.2.recorded && s.completionBusy e.2.part e.2.owner (e.2.word 2)))).map
    (fun e => { since := e.2.endTide.getD 0, port := e.2.owner, num := e.1, act := .event (.taskComplete e.1) 0 })

/-- What its core's order holds back has not arrived (R219). -/
def State.holdArrivals (s : State) : State :=
  let s := s.busy.foldl (fun s c => s.modCore c (fun k => { k with reqs := k.reqs.map (fun r =>
    if r.ready ≤ s.tide && !(k.mayGo r && k.allArrived r && !s.nearHolds c r && !s.stationAhead c r) then
      { r with ready := s.tide + 1 } else r) })) s
  { s with msgs := s.msgs.map (fun m =>
      if !m.accepted && m.ready ≤ s.tide && !s.mayAccept m && !s.msgBusy m then { m with ready := s.tide + 1 } else m) }

/-- Acknowledgements that have come, and the fences and acquires that are then complete (R428). -/
def State.takeAcks (s : State) : State :=
  let near := s.acks.filter (fun a => a.due ≤ s.tide && a.near)
  s.run (near.map (fun a => Act.event .nearMemoryAck a.id))

/-- All that reaches memory at this tide, in the order of arrival (R213, R219), then replies. -/
def State.takeMemory (s : State) : State :=
  let s := s.gatherReady
  let out := s.outstandingIds
  let s := ((s.busy.foldl (fun s c => s.clearFences out c) s).pruneCovers out).holdArrivals
  let xs := sortBy Arrival.before (s.accesses ++ s.requests ++ s.remotes ++ s.untimed
    ++ s.setAccesses ++ s.schedulerAccesses)
  let replies := (s.acks.filter (fun a => a.due ≤ s.tide && !a.near)).map (fun a =>
    Act.event (.statusReplyLanding a.core a.id) 0)
  { s with
    inputs := s.memoryInputs.2
    agenda := s.agenda.filter (fun d => !(d.at_ ≤ s.tide && (s.duePort d).any (fun (p : Nat × Bool) => !p.2))) }.run
    (xs.map Arrival.act ++ replies)

/-- Commands that start, tiles that become visible, groups that expire. -/
def State.takeCommands (s : State) : State :=
  let starts := s.busy.flatMap (fun c => ((s.core c).cmds.filter (s.startable c)).map (fun x =>
    Instr.engineCommandStart c x.id))
  let late := (s.groups.filter s.groupLate).map (fun g => Act.event .groupExpiry g.id)
  let transfers := (s.etherDone.filter (fun x => !s.transferWaits x.1)).map (fun x =>
    Instr.ethernetTransferComplete x.1 x.2)
  s.run (acts (starts ++ transfers) ++ s.inboxOver.map (fun x => Act.event .sendArrival x) ++ late)

/-! ### Issue -/

/-- Gangs that are not quiet at the end of their bound (R114), and cores whose operands are checked at this tide
(R133). -/
def State.takeChecks (s : State) : State :=
  let s := s.busy.foldl State.handlerWait s
  s.run (acts (s.overruns.map Instr.runmaxExpiry ++ (s.busy.filter (fun c =>
    (s.core c).active && (s.core c).stopAt.isNone && (s.core c).stream.wait.isNone)).map
      Instr.presenceCheck))

/-- The gangs whose pre-emption stop begins at this tide, unless a fault comes first (R122). -/
def State.beginners (s : State) : List (Nat × Task) := s.tasks.filter (fun e => s.stopBegins e.2)

/-- Issue groups: all but those of the anchors at which a stop begins, and of the cores that an operation in
flight makes fault at this tide, which issue nothing (R137, R193). -/
def State.takeGroups (s : State) : State :=
  let s := s.resolveMisses
  let s := s.busy.foldl (fun s c => s.conflict c s.tide) s
  let probe := s.performAll
  let s := s.modCores (s.busy.filter (probe.faultsNow s)) (fun k =>
    { k with stopAt := some (Nat.min s.tide (k.stopAt.getD s.tide)) })
  let anchors := s.beginners.map (fun e => e.2.cores.headD 0)
  s.run ((s.busy.filter (fun c => (s.core c).issuing s.tide && !anchors.contains c)).map Act.group)

/-- Anchors whose gang faults in the tide in which a stop was to begin issue all the same, before anything performs
(R122, R126): where another core of the gang has faulted at issue, or one faults as its operations perform. -/
def State.takeAnchors (s : State) : State :=
  let due := (s.tasks.filter (fun e => e.2.preempt && e.2.state == .running)).map
    (fun e => (e.2.cores.headD 0, e.2.cores))
  let waiting := due.filter (fun x => (s.core x.1).issuing s.tide && !((s.core x.1).group s.tide).isEmpty)
  if waiting.isEmpty then s
  else
    let probe := s.performAll
    let anchors := waiting.filter (fun x => !s.beginners.any (fun e => e.2.cores == x.2) || x.2.any (probe.faultsNow s))
    s.run (anchors.map (fun x => Act.group x.1))

/-- What performs, the banks that it uses, and the chain slots that stop. -/
def State.takePerforms (s : State) : State :=
  (s.modCores s.busy (fun k => (k.noteBanks s.tide).clearStops s.tide)).run [.performs]

/-- Heads of SEND tiles reserve slots, after the ring operations of the tide (R433). -/
def State.takeHeads (s : State) : State := s.run (s.inboxWaiting.map (fun x => Act.event .sendArrival x))

/-- The pre-emption stops that begin. -/
def State.takeStops (s : State) : State := s.run (acts (s.beginners.map (fun e => Instr.preemptionStop e.1)))

/-! ### The end of a tide -/

/-- Entries that an invalidation marks (R175, R177), cores that stop, and arrivals at gates. -/
def State.takeGates (s : State) : State :=
  let s := ((List.range 257).filter (fun f => (s.func f).xmark)).foldl State.markRange s
  let s := s.freezeStopping.modCores s.busy (fun k => k.markWait s.tide)
  s.run (acts ((s.busy.filter (fun c => (s.core c).arrives)).map Instr.gateArrival))

/-- Tiles whose flits pass on to their slots (R430), and gates that open. -/
def State.takeOpenings (s : State) : State :=
  ((s.inbound.filter (fun x => x.slot.isSome)).foldl State.passFlits s).run (acts (s.openings.map Instr.gateOpen))

/-- Quiet cores, and a stop that has waited for the commit of this tide (R117, R122). -/
def State.takeQuiet (s : State) : State :=
  let s := s.modCores (s.busy.filter s.isQuiet) (fun k => { k with mode := .quiet, wentQuiet := true })
  s.run (acts ((s.beginners.filter (fun e => e.2.lastc == s.tide)).map (fun e => Instr.preemptionStop e.1)))

/-- Gangs that end, once the memory side has accepted their writes, and handlers that begin. A gang's END is the
tide at which its last core became quiet (R113). -/
def State.takeEnds (s : State) : State :=
  let quiet := s.tasks.filter (fun e => s.gangQuiet e.2)
  let ends := quiet.filter (fun e => !e.2.cores.any s.holdsWrite)
  let s := quiet.foldl (fun s e => s.modTask e.1 (fun k => { k with endTide := some (k.endTide.getD s.tide) })) s
  s.run (acts ((ends.map (fun e => Instr.gangEnd e.1)) ++ s.handlersDue.map Instr.handlerStart))

/-- Resets and invalidations that are complete. -/
def State.takeResets (s : State) : State :=
  let fs := List.range 257
  s.run (acts ((fs.filter s.invalidationOver).map Instr.invalidationDone ++
    (fs.filter s.flrOver).map Instr.flrVfComplete ++ s.resetting.map Instr.partitionResetComplete))

/-- Messages that are offered to die-edge links, in the order of offer (R29), after the control messages of this
tide. -/
def State.takeCrossings (s : State) : State :=
  let xs := s.flits.filter (fun f => f.due ≤ s.tide && !f.legs.isEmpty)
  s.run ((sortBy (fun (x y : Flit) => decide (x.due ≤ y.due)) xs).map (fun f => Act.event .timedFlitArrival f.id))

/-- Cores that fetch: those that run, and those on which a task has been placed. -/
def State.takeFetches (s : State) : State :=
  s.run (acts ((s.busy.filter (fun c =>
    (s.core c).stream.fetching && ((s.core c).mode == .running || (s.core c).mode == .handler
      || (s.core c).mode == .idle))).map Instr.fetch))

/-! ### Phases -/

/-- The phases of a tide. -/
def phases : List (State → State) :=
  [State.takeStrokes, State.takeMeasures, State.takeInputs, State.takeDue, State.takeArrivals,
   State.takeDecisions, State.takeRecords, State.takeScans, State.takeAcks, State.takeMemory, State.takeCommands,
   State.takeChecks, State.takeGroups, State.takeAnchors, State.takePerforms, State.takeHeads, State.takeStops,
   State.takeGates, State.takeOpenings, State.takeQuiet, State.takeEnds, State.takeResets, State.takeCrossings,
   State.takeFetches]

/-- The next phase of a tide, or the next tide. -/
def State.turn (s : State) : State :=
  match phases[s.phase]? with
  | some f => f { s with phase := s.phase + 1 }
  | none => { s with phase := 0, tide := s.tide + 1 }

/-- A step of the machine but for the instruction that it runs: that instruction, if any, and the state in
which it runs. -/
def State.nextAct (s : State) : Option Instr × State :=
  match s.now with
  | [] => (none, s.turn)
  | .event i x :: rest => (some i, { s with now := rest, subject := x })
  | .group c :: rest => (none, { s with now := rest }.groupCheck c)
  | .issue c e :: rest => { s with now := rest }.issueHead c e
  | .performs :: rest => (none, { s with now := rest }.performAll)
  | .move c id :: rest => (none, { s with now := rest }.moveTurn c id)
  | .line c a :: rest => (none, { s with now := rest }.lineTurn c a)
  | .write id :: rest => (none, { s with now := rest }.writeTurn id)

/-! ### A word that comes next -/

/-- A task of one core whose kernel is one row (R56). -/
def oneRowTask : Task :=
  { record := [0, 0, 0, 0, 0, 1, 0, 0], vf := 1, part := 0, state := .running, cores := [0] }

/-- Core 0 on a task, with some words at the start of its stream and the first `n` of them fetched. -/
def Core.withWords (k : Core) (t tide n : Nat) (ws : List W32) : Core :=
  let k := { k with
    task := some t, gidx := 0, mode := .running, saved := none, stopAt := none, walk := none, haltTide := 0
    istore := Sparse.write 0 k.istore 0 ws, lease := [(0, ⟨t, 0, .live⟩)]
    stream := { queues := Vector.replicate 8 { nxt := tide }, fetching := true } }
  k.fetchWords 1 64 n

/-- A word of a queue that a GUARD may stand before: NOP, VMOV, MSWP, TZERO, LD, ST, RFENCE, KVTU. -/
def guardedWord (e : Nat) : W32 :=
  BitVec.ofNat 32 (e * 2 ^ 29 + [0x1C, 0x1C, 0x02, 0x02, 0x01, 0x01, 0x14, 0x0B].getD e 0 * 2 ^ 20)

/-- The state in which core 0 issues a word next: it runs a gang of its own, the word stands first in its
instruction store and has been fetched; behind a GUARD comes a word for it to guard, behind a gate-class word the
GATE of its queue (R129). -/
def State.withWord (s : State) (nbits w : Nat) : State :=
  let word : W32 := BitVec.ofNat 32 (w % 2 ^ nbits)
  let e := engineOf word
  let next : W32 := BitVec.ofNat 32 (e * 2 ^ 29 + 0x3D * 2 ^ 20)
  let gate := ((decode word).toOption.map (fun i => (operands i).gate)).getD false
  let ws := if isGuard word then [word, guardedWord e] else if gate then [word, next] else [word]
  let s := { s with
    powered := true, boot := .ready, tasks := s.tasks.put s.fresh oneRowTask, fresh := s.fresh + 1
    now := [.issue 0 e] }
  s.modCore 0 (fun k => k.withWords (s.fresh - 1) s.tide ws.length ws)

end Sys2Proof.Machine
end

