-- ==== Sys2Proof/Machine/Step.lean ====
section
/-!
DEFINITION. The step of the package, and the state that is about to run a given word.
-/

namespace Sys2Proof.Machine

/-- The first package reset of a list of inputs, and the inputs after it: those before it find no package. -/
def resetInput : List (Nat × Instr) → Option (Instr × List (Nat × Instr))
  | (_, .packageReset e) :: rest => some (.packageReset e, rest)
  | _ :: rest => resetInput rest
  | [] => none

/-- A step of a package that runs nothing: it waits for a package reset (R22, R23). -/
def State.dead (s : State) (f : Fault) : Host.Outcome State Fault Refusal :=
  match resetInput s.inputs with
  | some (i, rest) => exec i { s with inputs := rest, now := [] }
  | none => .fault f

/-- One step of the package (log 4). -/
def step (s : State) : Host.Outcome State Fault Refusal :=
  if !s.powered then s.dead .powerRemoved
  else if s.boot = .fatal then s.dead .packageFatal
  else
    match s.nextAct with
    | (some i, s) => exec i s
    | (none, s) => .next s

/-- The state with a word that core 0 issues next: the core runs a gang of its own, the word stands in row 0
of its instruction store and at the head of its queue. -/
def State.withFetchWord (s : State) (nbits w : Nat) : State := s.withWord nbits w

end Sys2Proof.Machine
end

