-- ==== Sys2Proof/Safety.lean ====
section
/-!
DEFINITION. What counts as a safe run, and the terms in which claims about the machine are made: the
canonical form of every storage, what a word adds to the operations in flight, and what a state holds.
-/

namespace Sys2Proof.Machine

/-! ### Safe runs -/

/-- A package that does nothing until a package reset: without power (R22), or in package fatal (R23). -/
def State.isDead (s : State) : Bool := !s.powered || s.boot == .fatal

/-- No step of a run of `n` steps ends in a fault or a refusal. -/
def runsOn : Nat → State → Prop
  | 0, _ => True
  | n + 1, s => ∃ t, step s = .next t ∧ runsOn n t

/-! ### Canonical storage -/

/-- The storage of one core in canonical form. -/
def Core.canonical (k : Core) : Prop :=
  k.scratch.wf ∧ (∀ n, (k.tile n).data.wf ∧ (k.tile n).side.wf) ∧ Sparse.wf (0 : W32) k.acc ∧
  (∀ q, (vget {} k.planes q).cols.wf ∧ (vget {} k.planes q).scales.wf) ∧ Sparse.wf (0 : W32) k.istore

/-- Every memory of the package in canonical form. -/
def State.canonical (s : State) : Prop :=
  s.cohort.wf ∧ s.device.wf ∧ s.host.wf ∧ ∀ c, (s.core c).canonical

/-! ### What a word adds to the operations in flight -/

/-- An operation of the word that is issuing: it performs `off` tc after this tide (R127). -/
def State.flight (s : State) (off : Nat) (op : POp) (banks : List Nat := []) : Perform :=
  { at_ := s.tide + off, eng := s.cur.eng, ord := s.me.ord, op := op, banks := banks, handler := s.inHandler }

/-- A core with operations added to those in flight. -/
def Core.withOps (k : Core) (ps : List Perform) : Core := { k with inflight := k.inflight ++ ps }

/-- The state with operations added to those in flight of the core that is issuing. -/
def State.launch (s : State) (ps : List Perform) : State := s.modMe (fun k => k.withOps ps)

/-- The cursors of some tiles moved on by a step, at issue + 1 (R340). -/
def State.bumps (s : State) (ts : List Nat) (step : Nat) : List Perform :=
  ts.map (fun n => s.flight 1 (.cursor n (((s.me.tile n).cur + step) % (s.me.tile n).rows)))

/-- Room for one more exposed operation (R128). -/
abbrev State.roomy (s : State) : Prop := s.me.exposedCount < 512

/-! ### Tiles -/

/-- A tile that a word may use: configured, and absent at most in a handler (R146, R341 steps 1 and 2). -/
abbrev Core.usable (k : Core) (n : Nat) : Prop :=
  (k.tile n).c = true ∧ ((k.tile n).a = true → k.mode = .handler)

/-- Tiles that a word may use together: each of a class, of one TYPE and one column count (R349). -/
abbrev Core.alike (k : Core) (cls : Nat → Bool) (ts : List Nat) : Prop :=
  ∀ n ∈ ts, k.usable n ∧ cls (k.tile n).ty = true ∧ (k.tile n).ty = (k.tile (ts.headD 0)).ty ∧
    (k.tile n).cols = (k.tile (ts.headD 0)).cols

/-- What a row word adds to the operations in flight: the write of d's cursor row, and the cursors that it moves
on (R340, R348). -/
def State.rowOps (s : State) (off : Nat) (d : BitVec 4) (xs : List (WithFlags Nat)) (scales : List Byte)
    (inc : List (Bool × Nat)) (step : Nat := 1) : List Perform :=
  s.flight off (rowWrite d.toNat (s.me.tile d.toNat) (s.me.tile d.toNat).cur (xs.map Prod.fst) scales (flagsOf xs))
    :: s.bumps (bumped inc) step

/-- The lanes of a V word (R348): `f` takes the rounding of the lane and the elements of a, b and d. -/
def State.lanes (s : State) (d a : BitVec 4) (b : VOperand)
    (f : Rounding → Nat → Nat → Nat → WithFlags Nat) : List (WithFlags Nat) :=
  let t := s.me.tile d.toNat
  (List.range t.cols).map (fun i =>
    f (laneRounding (s.me.rounding 1) t t.cur i) ((s.me.cursorRow a.toNat).getD i 0)
      ((s.me.bRow b t.ty t.cols).getD i 0) ((s.me.cursorRow d.toNat).getD i 0))

/-! ### The matrix array -/

/-- The head of the format queue is for an operation (R364): there is one, its FOR is OP and its fields hold
values that OP accepts. -/
abbrev State.formatReady (s : State) (op : Nat) : Prop :=
  s.me.stream.fmtq ≠ [] ∧ fwFor s.me.format = op ∧ ∀ f ∈ formatFields op s.me.format, f.2 = true

/-- The slot that a ring's read point names may be read (R367): the ring is enabled and releases in order, the
slot is long enough and carries its own tag; the core does not stand in an epilogue. -/
abbrev State.slotReady (s : State) (n rows tail : Nat) : Prop :=
  let r := s.me.ring n
  s.inEpilogue = false ∧ r.enabled = true ∧ r.rel = r.con ∧ rows * 256 + tail ≤ r.slotBytes ∧
    r.tagAt r.mPosition = r.mPosition.setWidth 16

/-! ### Global accesses -/

/-- The request of the issuing word for a global access (R197, R206): the next in core order, from a free later
tide on. -/
def State.asked (s : State) (op : GOp) (pieces : List Piece) (entries : List TlbEntry)
    (scope order : Nat := 0) : GReq :=
  { id := s.fresh, issued := s.tide, eng := s.cur.eng, ord := s.me.ord, op := op, pieces := pieces
    scope := scope, order := order, tlb := entries.map TlbEntry.id
    ready := s.tide + 1 + Config.latency (s.fresh + 1) }

/-- An entry of the translation buffer serves an access of a word, and there is room for it (R172, R174). -/
abbrev State.mapped (s : State) (va : Nat) (a : Access) (e : TlbEntry) : Prop :=
  s.translate s.cur.core va a = .hit e ∧ s.me.outstanding + 1 ≤ 4096

/-- An address that an access of n bytes of a space may name (R381), and, for a read of ring slots, with the slots'
own tags (R134). -/
abbrev Core.fits (k : Core) (sp e n : Nat) (write : Bool) : Prop :=
  e + n ≤ spaceBytes sp ∧ aligned e n = true ∧ (sp = 0 → 8 < n → e % 2 ^ 16 + n ≤ 2 ^ 16) ∧
    (sp = 1 → write = true → k.touchesHeap e n = false) ∧ (sp = 1 → write = false → k.tagClash e n = none)

/-- The entries of the translation buffer serve the accesses of a word, one for each address. -/
abbrev State.mappedAll (s : State) (as : List Nat) (a : Access) (es : List TlbEntry) : Prop :=
  es.map Trans.hit = as.map (fun x => s.translate s.cur.core x a) ∧ s.me.outstanding + as.length ≤ 4096

/-- A gate-class word in its place (R129, R431): not in a handler, the first of its segment. -/
abbrev State.gatePlace (s : State) : Prop := s.inHandler = false ∧ s.me.stream.gate.word = none

/-- No error acknowledgement that a timed release at device or system scope would raise (R207). -/
abbrev State.quiet (s : State) (scope order : Nat) : Prop :=
  2 ≤ order → 3 ≤ scope → ∀ r ∈ s.me.near, r.acked = true → r.error = none

/-- The message of the issuing word to a base die (R196, R207), from a free later tide on. -/
def State.message (s : State) (stack : Nat) (kind : MsgKind) (reg : Nat := 0) (least : Nat := 1)
    (remote : Option Nat := none) (info : W64 := 0) : Msg :=
  { id := s.fresh, core := some s.cur.core, task := s.me.task.getD 0, part := s.me.part, stack := stack, kind := kind
    reg := reg, ready := s.tide + least + Config.latency (s.fresh + 1), remote := remote, info := info
    vf := s.myTask.vf }

/-- The beats of an access of n bytes (R382, R155, R159): 2 KiB in a tc in scratchpad, the first at `first`; 256
bytes in a tc in cohort memory, each a use of the core's cohort slot and, 12 tc later, an access. -/
def State.beatOps (s : State) (first : Nat) (p : Place) (n : Nat) (f : Nat → Nat → POp) : List Perform :=
  match p with
  | .scratch a => (List.range ((n + 2047) / 2048)).map (fun b =>
      s.flight (first + b) (f (2048 * b) (Nat.min 2048 (n - 2048 * b)))
        (banksOf (a + 2048 * b) (Nat.min 2048 (n - 2048 * b))))
  | _ => (List.range ((n + 255) / 256)).flatMap (fun b =>
      [s.flight b .use [cohortSlot], s.flight (12 + b) (f (256 * b) (Nat.min 256 (n - 256 * b)))])

/-- A gather or scatter may use its table and list (R388): rows of 64 to 512 bytes of a configured tile that is no
block type, a base and a list that are aligned, a list in scratchpad that meets only the tags of its own slots, and
row addresses that are in the space. -/
abbrev State.rowsReady (s : State) (n sp : Nat) (base list : W64) (write : Bool) : Prop :=
  let t := s.me.tile n
  let rb := rowBytes t.shape
  s.me.usable n ∧ isK t.ty = false ∧ rb ∈ [64, 128, 256, 512] ∧ base.toNat % rb = 0 ∧ list.toNat % 64 = 0 ∧
    list.toNat + 4 * t.rows ≤ 2 ^ 22 ∧ s.me.tagClash list.toNat (4 * t.rows) = none ∧
    ∀ a ∈ s.me.rowAddresses base list.toNat t.rows rb, s.me.fits sp a rb write

/-! ### What a state holds -/

/-- The contents of one core that words change at their perform tides (R126): scalar registers,
accumulators, planes, tile contents, scratchpad, flags, FLAGS, the stochastic-rounding registers. -/
structure CoreHeld where
  sreg : Vector W64 32
  acc : Sparse W32
  planes : Vector (Memory × Memory) 2
  tiles : Vector (Memory × Memory) 16
  scratch : Memory
  flags : Vector W32 32
  fflags : BitVec 20
  sr : SrRegs
  deriving DecidableEq, Repr

def Core.held (k : Core) : CoreHeld :=
  ⟨k.sreg, k.acc, k.planes.map (fun p => (p.cols, p.scales)), k.tiles.map (fun t => (t.data, t.side)),
    k.scratch, k.flags, k.fflags, k.sr⟩

/-- Registers, memories and page headers of the whole package but for host memory. -/
structure Held where
  cores : Vector CoreHeld 256
  cohort : Memory
  device : Memory
  headers : Sparse (BitVec 128)
  locked : Sparse Sealed
  deriving DecidableEq, Repr

def State.held (s : State) : Held := ⟨s.cores.map Core.held, s.cohort, s.device, s.headers, s.locked⟩

/-- A state in which the issuing word has made one more request, and no content has changed. -/
def State.asks (s t : State) (r : GReq) : Prop :=
  t.me.reqs = s.me.reqs ++ [r] ∧ t.held = s.held

/-- A state in which the issuing word has sent one more message that awaits its acknowledgement, and no content has
changed. -/
def State.sends (s t : State) (m : Msg) : Prop :=
  t.msgs = s.msgs ++ [m] ∧ t.held = s.held ∧
    ∃ r, t.me.near = s.me.near ++ [r] ∧ r.id = s.fresh ∧ r.issued = s.tide ∧ r.acked = false

/-- A state in which the issuing word has set the class of its segment's gate, and no content has changed. -/
def State.gates (s t : State) (c : GateClass) : Prop :=
  t.me.stream.gate.cls = c ∧ t.me.stream.gate.word = some s.cur.q.addr ∧ t.me.stream.gate.eng = s.cur.eng ∧
    t.held = s.held

/-! ### What steps of the package leave -/

/-- A task that is to end: its verdict is known (R142). -/
def State.ends (t : State) (n : Nat) : Prop := ∃ k, t.task? n = some k ∧ k.verdict.isSome = true

/-- Whether bring-up finds a die with both of its stacks (R23). -/
abbrev bootAlive (e : BootEnv) : Prop :=
  ∃ d, d < 4 ∧ e.diesOk.getLsbD d = true ∧ e.stacksOk.getLsbD (2 * d) = true ∧ e.stacksOk.getLsbD (2 * d + 1) = true

/-- A ready package as bring-up leaves it (R23, R25): the tide counts from zero, the links that trained are up, and a
die is present exactly where its self-test and its two stacks passed. -/
def State.upWith (t : State) (e : BootEnv) : Prop :=
  t.boot = .ready ∧ t.tide = 0 ∧ t.stationUp = e.stationsUp ∧ t.portUp = e.portsUp ∧
  ∀ d, d < 4 → t.diepres.getLsbD d = (e.diesOk.getLsbD d && e.stacksOk.getLsbD (2 * d) &&
    e.stacksOk.getLsbD (2 * d + 1)) ∧
    t.stkpres.getLsbD (2 * d) = t.diepres.getLsbD d ∧ t.stkpres.getLsbD (2 * d + 1) = t.diepres.getLsbD d

/-- A refused write of PF0 (R465): the host of PF0 is told. -/
def State.refuses (s t : State) : Prop := t.msix = s.msix ++ [(0, 0)] ∧ t.held = s.held ∧ t.parts = s.parts

/-- An answer on its way to the core of a message, later than this tide (R207, R383). -/
def State.answers (s t : State) (m : Msg) (status : Option W64) (error : Option (Byte × W64)) : Prop :=
  ∃ a, t.acks = s.acks ++ [a] ∧ a.msg = m.id ∧ m.core = some a.core ∧ a.task = m.task ∧ a.reg = m.reg ∧
    a.status = status ∧ a.error = error ∧ s.tide < a.due

/-- A task that a reset has ended: it stops, or it is over (R63, R64). -/
def State.aborts (s t : State) (n : Nat) : Prop :=
  ∀ k, s.task? n = some k → (k.state = .running → k.cores ≠ []) →
    ∃ y, t.task? n = some y ∧ (y.state = .stopping ∨ y.state = .ending ∨ y.state = .done)

/-- Control of a graph passes to a successor at a later tide, while the graph runs (R85, R88 to R93). -/
def State.passes (s t : State) (g next : Nat) : Prop :=
  ∃ x y, s.graph? g = some x ∧ t.graph? g = some y ∧ y.waiting = false ∧ y.nowait = x.nowait ∧ y.fail = x.fail ∧
    (x.state = .running → y.at_ = next ∧ s.tide < y.since)

/-- A graph drains with the failure that it first recorded (R94). -/
def State.drains (t : State) (g : Nat) (f : Nat × Nat × Nat) : Prop :=
  ∃ y, t.graph? g = some y ∧ y.state = .draining ∧ y.fail = some f ∧ y.waiting = false

/-- An address of a node lies in device memory that its graph may access so (R85, R90). -/
def State.nodeAt (s : State) (x : Graph) (va : Nat) (a : Access) (dpa : Nat) : Prop :=
  va < 2 ^ 57 ∧ ∃ l, s.walk x.part x.die a va = .ok l ∧ l.target va = .device dpa ∧ l.kind.admits a = true

/-- Bytes of device memory that a step has stored: no other byte has changed, and no core. -/
def State.stores (s t : State) (dpa : Nat) (bs : List Byte) : Prop :=
  t.device.read dpa bs.length = bs ∧ t.cores = s.cores ∧ t.cohort = s.cohort ∧
    ∀ a, (a < dpa ∨ dpa + bs.length ≤ a) → t.device.get a = s.device.get a

/-- A core that the freeze of a fault has reached (R137). -/
abbrev State.faultFrozen (s : State) (c : Nat) : Bool :=
  (s.core c).mode == .frozen && ((s.taskOf c).bind Task.stop).any (fun st => st.kind.frames)

/-- A core that runs no handler, that no fault has frozen and that has no fault of its own yet records its own fault
(R137, R138). -/
def State.records (s t : State) (c eng : Nat) (precise : Bool) (code : Nat) (info : W64) : Prop :=
  (s.core c).mode ≠ .handler → s.faultFrozen c = false → (s.core c).ownFault = false →
    (t.core c).fcause = fcauseOf precise true eng code ∧ (t.core c).finfo = info

/-- A miss of a core is announced for a plane (R135, R136): its gang has a stop, and the plane is due. -/
def State.announces (s t : State) (n c f : Nat) : Prop :=
  ∃ y st, t.task? n = some y ∧ y.stop = some st ∧ st.plane = f ∧
    st.kind = (if wbit (s.core c).hmode 1 then .missTrap else .slip) ∧
    (s.tide < f → ⟨f, .slipPlane n, 0⟩ ∈ t.agenda) ∧ (f ≤ s.tide → .event (.slipPlane n) 0 ∈ t.now)

/-- A page operation answered (R227, R397): the request is gone, and its status, detail and page are on their way. -/
def State.replied (s t : State) (m : Msg) (status detail page : Nat) : Prop :=
  t.msgs = s.msgs.filter (fun y => y.id != m.id) ∧ t.cores = s.cores ∧
    s.answers t m (if m.reg = 0 then none else some (t.replyWord ⟨status, detail, page⟩)) none

/-- A page operation that changes nothing, with its answer. -/
def State.declines (s : State) (i : Instr) (m : Msg) (status detail page : Nat) : Prop :=
  ∃ t, exec i s = .next t ∧ s.replied t m status detail page ∧ t.headers = s.headers ∧ t.device = s.device

/-- The header of one page after a page operation: no other page's header has changed. -/
def State.heads (s t : State) (page : Nat) (h : PageHeader) : Prop :=
  t.header page = h ∧ ∀ q, q ≠ page → t.header q = s.header q

/-- A request of a contributor that an open group has accepted (R240 to R242): it is acknowledged, the group's last
request is now, the other contributors stand as they were, and the group leaves Open exactly when every contributor is
settled (R244). -/
def State.contributes (s t : State) (m : Msg) (g y : Group) (c : Nat) : Prop :=
  t.msgs = s.msgs.filter (fun x => x.id != m.id) ∧ t.held = s.held ∧ (m.core ≠ none → s.answers t m none none) ∧
    t.group g.id = some y ∧ y.desc = g.desc ∧ y.last = s.tide ∧ (∀ i, i ≠ c → y.cont i = g.cont i) ∧
    y.state = (if y.settled then (if y.applies then .applying else .completing) else .open_)

/-- A command that ends without its effect (R162, R328): it is gone, its chain has stopped with ERR, and without a
record the core has the fault. -/
def State.spoils (s t : State) (c : Nat) (x : Command) (code : Nat) (info : W64) : Prop :=
  (t.core c).command x.id = none ∧
    (∀ j, j < 8 → x.slot = some j → ((t.core c).chain j).err = true ∧ ((t.core c).chain j).run = false) ∧
    (cmdCompl x.words = 0 → s.records t c 7 false code info)

/-! ### Encodings -/

/-- The OP values that R299 assigns to an engine. -/
def assignedOp (e op : Nat) : Bool :=
  (1 ≤ op && op ≤ [0x1F, 0x1E, 0x08, 0x0D, 0x07, 0x0B, 0x15, 0x0F].getD e 0) ||
    (op == 0x1E && (e == 2 || e == 5)) || (0x3D ≤ op && op ≤ 0x3F)

end Sys2Proof.Machine
end

