-- ==== Sys2Proof/Certificates/Slice0/Obligations.lean ====
section
/-!
DEFINITION. The statements about the model, for the provers. A statement names the rule of spec/ that it
formalises; `s.launch ps` is s with the operations ps added to those in flight of the core that issues, and
`s.flight off op` is the issuing word's operation that performs `off` tc after this tide.
-/

open Sys2Proof Sys2Proof.Machine

/-! ### The S engine -/

/-- R309, R310: the words of the S engine that compute with offset 1, for every destination that R303 allows:
each issues, and what it adds to the operations in flight is one write of d, with the result of R310, one tc
later. -/
def Obligations.ScalarWordsComplete : Prop :=
  ∀ (s : State) (i : BitVec 3) (d a b c : BitVec 5), d.toNat < 24 → s.roomy →
    let out (v : W64) : Host.Outcome State Fault Refusal := .next (s.launch [s.flight 1 (.reg d.toNat v)])
    let x := s.reg a
    let y := s.reg b
    exec (.add i d a b) s = out (x + y) ∧
    exec (.sub i d a b) s = out (x - y) ∧
    exec (.and i d a b) s = out (x &&& y) ∧
    exec (.or i d a b) s = out (x ||| y) ∧
    exec (.xor i d a b) s = out (x ^^^ y) ∧
    (∀ m : BitVec 10, exec (.addi i d a m) s = out (x + m.signExtend 64) ∧
      exec (.andi i d a m) s = out (x &&& m.signExtend 64) ∧
      exec (.ori i d a m) s = out (x ||| m.signExtend 64) ∧
      exec (.xori i d a m) s = out (x ^^^ m.signExtend 64)) ∧
    (∀ m : BitVec 15, exec (.li i d m) s = out (m.signExtend 64) ∧
      exec (.lsi i d m) s = out ((s.reg d <<< 15) ||| m.setWidth 64)) ∧
    exec (.sel i d a b c) s = out (if s.reg c = 0 then y else x) ∧
    exec (.min i d a b 0) s = out (if x.sle y then x else y) ∧
    exec (.min i d a b 1) s = out (if x ≤ y then x else y) ∧
    exec (.max i d a b 0) s = out (if x.sle y then y else x) ∧
    exec (.max i d a b 1) s = out (if x ≤ y then y else x) ∧
    exec (.cmp i d a b 0) s = out (if x = y then 1 else 0) ∧
    exec (.cmp i d a b 1) s = out (if x ≠ y then 1 else 0) ∧
    exec (.cmp i d a b 2) s = out (if x.slt y then 1 else 0) ∧
    exec (.cmp i d a b 3) s = out (if y.sle x then 1 else 0) ∧
    exec (.cmp i d a b 4) s = out (if x < y then 1 else 0) ∧
    exec (.cmp i d a b 5) s = out (if y ≤ x then 1 else 0)

/-- R310, R311: MUL and MULH give the halves of the signed or natural 128-bit product with offset 3; DIV
truncates towards zero with offset 34, its remainder is a − q × b, and none of its corners traps: a divisor of
zero gives all ones and a, and −2^63 by −1 gives −2^63 and 0. -/
def Obligations.MultiplyDivideComplete : Prop :=
  ∀ (s : State) (i : BitVec 3) (d a b : BitVec 5), d.toNat < 24 → s.roomy →
    let out (off : Nat) (v : W64) : Host.Outcome State Fault Refusal :=
      .next (s.launch [s.flight off (.reg d.toNat v)])
    let x := s.reg a
    let y := s.reg b
    exec (.mul i d a b) s = out 3 (x * y) ∧
    exec (.mulh i d a b 0) s = out 3 ((x.signExtend 128 * y.signExtend 128).extractLsb' 64 64) ∧
    exec (.mulh i d a b 1) s = out 3 ((x.setWidth 128 * y.setWidth 128).extractLsb' 64 64) ∧
    (∀ f : BitVec 2, y = 0 → exec (.div i d a b f) s =
      out 34 (if f.getLsbD 0 then x else 0xFFFFFFFFFFFFFFFF)) ∧
    (y ≠ 0 → exec (.div i d a b 0) s = out 34 (x.sdiv y) ∧
      exec (.div i d a b 1) s = out 34 (x - x.sdiv y * y) ∧
      exec (.div i d a b 2) s = out 34 (x / y) ∧
      exec (.div i d a b 3) s = out 34 (x - x / y * y)) ∧
    (x = 0x8000000000000000 → y = 0xFFFFFFFFFFFFFFFF →
      exec (.div i d a b 0) s = out 34 0x8000000000000000 ∧ exec (.div i d a b 1) s = out 34 0)

/-- R310, R312: shifts by bits 5:0 of register b, or by an immediate of 0 to 63; and the bit fields of BFX
and BFI, bit by bit: with p = POS and n = LEN from register b, BFX gives bit j of the field for j < n, where
field bits above bit 63 read zero, and above it zeros or the field's top bit; BFI replaces bits p to p + n − 1
of d. -/
def Obligations.ShiftsAndFieldsComplete : Prop :=
  ∀ (s : State) (i : BitVec 3) (d a b : BitVec 5), d.toNat < 24 → s.roomy →
    let out (v : W64) : Host.Outcome State Fault Refusal := .next (s.launch [s.flight 1 (.reg d.toNat v)])
    let x := s.reg a
    let y := s.reg b
    let n := (y &&& 63).toNat
    let len := (y >>> 8 &&& 63).toNat + 1
    exec (.shl i d a b) s = out (x <<< n) ∧
    exec (.shr i d a b) s = out (x >>> n) ∧
    exec (.sar i d a b) s = out (x.sshiftRight n) ∧
    (∀ h : BitVec 1, let k := b.toNat + 32 * h.toNat
      exec (.shlImm i d a b h) s = out (x <<< k) ∧ exec (.shrImm i d a b h) s = out (x >>> k) ∧
      exec (.sarImm i d a b h) s = out (x.sshiftRight k)) ∧
    (∃ v, exec (.bfx i d a b 0) s = out v ∧ ∀ j, v.getLsbD j = (decide (j < len) && x.getLsbD (n + j))) ∧
    (∃ v, exec (.bfx i d a b 1) s = out v ∧ ∀ j, j < 64 → v.getLsbD j =
      if j < len then x.getLsbD (n + j) else x.getLsbD (n + len - 1)) ∧
    (∃ v, exec (.bfi i d a b) s = out v ∧ ∀ j, j < 64 → v.getLsbD j =
      if n ≤ j ∧ j < n + len then x.getLsbD (j - n) else (s.reg d).getLsbD j)

/-- R310, R313: CLZ and POPC count the leading zeros and the ones; SPT gives the class of R150 for a pointer of every
window, of this core or cohort or of another, and 0xF for a reserved window or a bit that must be zero; and SPC converts
between the private and the scratchpad form of a pointer of this core, or gives 0xF000_0000_0000_0000. -/
def Obligations.CountsAndPointersComplete : Prop :=
  ∀ (s : State) (i : BitVec 3) (d a : BitVec 5), d.toNat < 24 → s.roomy →
    let out (v : W64) : Host.Outcome State Fault Refusal := .next (s.launch [s.flight 1 (.reg d.toNat v)])
    let x := s.reg a
    (∃ v, exec (.clz i d a) s = out v ∧ v.toNat ≤ 64 ∧ (∀ j, 64 - v.toNat ≤ j → x.getLsbD j = false) ∧
      (v.toNat < 64 → x.getLsbD (63 - v.toNat) = true)) ∧
    (∃ v, exec (.popc i d a) s = out v ∧ v.toNat = ((List.range 64).filter (fun j => x.getLsbD j)).length) ∧
    (∃ v, exec (.spt i d a) s = out v ∧ (x.toNat < 2 ^ 57 → v = 0) ∧
      (8 * 2 ^ 60 ≤ x.toNat → x.toNat < 8 * 2 ^ 60 + 2 ^ 20 → v = 1) ∧ (12 * 2 ^ 60 ≤ x.toNat → v = 15)) ∧
    (∀ o, o < 2 ^ 20 → x = w64 (8 * 2 ^ 60 + o) →
      exec (.spc i d a 0) s = out (if o < s.me.privSize then scratchPtr s.me.vid (s.me.privBase + o)
        else 0xF000000000000000) ∧
      exec (.spc i d a 1) s = out (if o < s.me.privSize then x else 0xF000000000000000)) ∧
    (∀ o, o < 2 ^ 22 → s.me.vid < 256 → x = scratchPtr s.me.vid o →
      exec (.spc i d a 0) s = out x ∧
      exec (.spc i d a 1) s = out (if s.me.privBase ≤ o ∧ o < s.me.privBase + s.me.privSize then
        w64 (8 * 2 ^ 60 + (o - s.me.privBase)) else 0xF000000000000000)) ∧
    (12 * 2 ^ 60 ≤ x.toNat → ∀ f, exec (.spc i d a f) s = out 0xF000000000000000) ∧
    (x.toNat < 2 ^ 57 → ∀ f, exec (.spc i d a f) s = out 0xF000000000000000) ∧
    (∀ v o, v < 256 → o < 2 ^ 22 → x = scratchPtr v o →
      exec (.spt i d a) s = out (if v = s.me.vid then 2 else 3) ∧
      (v ≠ s.me.vid → ∀ f, exec (.spc i d a f) s = out 0xF000000000000000)) ∧
    (∀ h o, h < 32 → o < 2 ^ 23 → s.me.vid < 256 → x = w64 (10 * 2 ^ 60 + h * 2 ^ 40 + o) →
      exec (.spt i d a) s = out (if h = s.me.vid / 64 * 8 + s.me.vid / 16 % 4 * 2 + s.me.vid / 4 % 2 then 4 else 5) ∧
      ∀ f, exec (.spc i d a f) s = out 0xF000000000000000) ∧
    (∀ v tag blk, v < 256 → tag < 2 ^ 16 → blk < 2 ^ 16 →
      x = w64 (11 * 2 ^ 60 + v * 2 ^ 40 + tag * 2 ^ 16 + blk) →
      exec (.spt i d a) s = out (if v = s.me.vid then 6 else 7) ∧
      ∀ f, exec (.spc i d a f) s = out 0xF000000000000000) ∧
    (((1 ≤ wbits x 63 60 ∧ wbits x 63 60 ≤ 7) ∨ (wbits x 63 60 = 0 ∧ wbits x 59 57 ≠ 0) ∨
        (wbits x 63 60 = 8 ∧ wbits x 59 20 ≠ 0) ∨ (wbits x 63 60 = 9 ∧ (wbits x 59 48 ≠ 0 ∨ wbits x 39 22 ≠ 0)) ∨
        (wbits x 63 60 = 10 ∧ (wbits x 59 45 ≠ 0 ∨ wbits x 39 23 ≠ 0)) ∨
        (wbits x 63 60 = 11 ∧ (wbits x 59 48 ≠ 0 ∨ wbits x 39 32 ≠ 0))) → exec (.spt i d a) s = out 15 ∧
      ∀ f, exec (.spc i d a f) s = out 0xF000000000000000)

/-- R303, R128: an arithmetic word that names s24 to s31 as its destination traps with 0x17 at issue, and one
that would be the 513th exposed operation in flight traps with 0x06 of kind 5; neither adds an operation. -/
def Obligations.ScalarWordsTrap : Prop :=
  ∀ (s : State) (j : BitVec 3) (d a b : BitVec 5), ∀ i ∈ [Instr.add j d a b, .sub j d a b, .mul j d a b,
      .mulh j d a b 0, .div j d a b 0, .shl j d a b, .cmp j d a b 0, .clz j d a, .bfi j d a b, .li j d 0],
    (24 ≤ d.toNat → exec i s = .next (s.trap 0x17 (w64 (s.cur.q.addr % 2 ^ 14)))) ∧
    (d.toNat < 24 → 512 ≤ s.me.exposedCount →
      exec i s = .next (s.trap 0x06 (missInfo 5 0 s.tide s.me.tbase)))

/-- R303, R126: a register write performs: d takes the value, s0 reads zero and takes nothing, every other
register and every other content of the package stays. -/
def Obligations.RegisterWritePerforms : Prop :=
  ∀ (o s : State) (c r : Nat) (p : Perform) (v : W64), p.op = .reg r v → c < 256 → r < 32 →
    let t := o.performOne c p s
    (t.core c).reg 0 = 0 ∧ (r ≠ 0 → (t.core c).reg r = v) ∧
    (∀ q, q < 32 → q ≠ r → (t.core c).reg q = (s.core c).reg q) ∧ (r = 0 → t = s) ∧
    (∀ d, d ≠ c → t.core d = s.core d) ∧ t.cohort = s.cohort ∧ t.device = s.device ∧ t.host = s.host ∧
    (t.core c).held = { (s.core c).held with sreg := (t.core c).sreg }

/-! ### Control -/

/-- R295 to R297, R271, R318, R314: NOP changes nothing; GATE marks its queue as arrived; WAIT moves the issue
point of its queue on by n; GUARD reads bit xor inv of its register and the guarded word issues with it; RMODE sets
the rounding state of its engine; LOOP, LOOP of a launch register within 1 to 2^24, and ENDL that fetch has found
well placed change nothing. -/
def Obligations.ControlWordsComplete : Prop :=
  ∀ (s : State) (e i : BitVec 3), s.cur.core < 256 →
    exec (.nop i) s = .next s ∧
    (∃ t, exec (.gate e i) s = .next t ∧ (t.me.queue e.toNat) = { s.me.queue e.toNat with arrived := true } ∧
      ∀ k, k ≠ e.toNat → t.me.queue k = s.me.queue k) ∧
    (∀ n, ∃ t, exec (.wait e i n) s = .next t ∧ (t.me.queue e.toNat).nxt = (s.me.queue e.toNat).nxt + n.toNat ∧
      t.held = s.held) ∧
    (∀ r b v, ∃ t, exec (.guard e r b v) s = .next t ∧ t.now = .issue s.cur.core e.toNat :: s.now ∧
      (t.me.queue e.toNat).guard = some (xor ((s.reg r).getLsbD b.toNat) (v == 1)) ∧ t.held = s.held) ∧
    (∀ (f : BitVec 1) (m : BitVec 3), (e = 1 ∨ e = 2 ∨ e = 5) → ∃ t, exec (.rmode e i f m) s = .next t ∧
      (t.me.rounding e.toNat).mode = m.toNat ∧ (t.me.rounding e.toNat).sat = (f == 1) ∧ t.held = s.held) ∧
    (s.cur.q.bad = false → (∀ n p, exec (.loop i n p) s = .next s) ∧ exec (.endl i) s = .next s ∧
      ∀ (j : BitVec 3) (p : BitVec 10), 1 ≤ (s.me.reg (24 + j.toNat)).toNat →
        (s.me.reg (24 + j.toNat)).toNat ≤ 2 ^ 24 → exec (.loopReg i j p) s = .next s)

/-- R314, R317, R318: a LOOP or ENDL that fetch found misplaced, a HALT in a loop, and a LOOP of a launch
register that holds 0 or more than 2^24 trap with 0x17 at their issue. -/
def Obligations.LoopFaults : Prop :=
  ∀ (s : State) (i : BitVec 3), let fault := s.trap 0x17 (w64 (s.cur.q.addr % 2 ^ 14))
    (s.cur.q.bad = true → (∀ n p, exec (.loop i n p) s = .next fault) ∧ exec (.endl i) s = .next fault ∧
      (s.inHandler = false → exec (.halt i) s = .next fault)) ∧
    ∀ (j : BitVec 3) (p : BitVec 10), ((s.me.reg (24 + j.toNat)).toNat = 0 ∨
        2 ^ 24 < (s.me.reg (24 + j.toNat)).toNat) → exec (.loopReg i j p) s = .next fault

/-- R318, R186: HALT outside a loop and outside a handler halts its core at this tide, and no pending reuse
run is left; registers and memories stay. -/
def Obligations.HaltCompletes : Prop :=
  ∀ (s : State) (i : BitVec 3), s.cur.core < 256 → s.inHandler = false → s.cur.q.bad = false →
    ∃ t, exec (.halt i) s = .next t ∧ t.me.mode = .halted ∧ t.me.haltTide = s.tide ∧ t.me.reuse = none ∧
      t.held = s.held

/-! ### The V engine -/

/-- R350, R351: the lanewise arithmetic of the V engine on tiles alike in TYPE and column count (R349): each word
issues and puts in flight the write of the cursor row of d at its offset, lane by lane from the elements of a, b
and d, and the post-increments at issue + 1. Integer lanes are exact and then fitted to the type; floating-point
lanes are rounded once. -/
def Obligations.LaneArithmeticCompletes : Prop :=
  ∀ (s : State) (i : BitVec 3) (d a : BitVec 4) (b : BitVec 5) (e p q r f : BitVec 1), s.roomy →
    let b' := s.vOperand b e
    let ty := (s.me.tile d.toNat).ty
    let out (off : Nat) (b : VOperand) (inc : List (Bool × Nat))
        (g : Rounding → Nat → Nat → Nat → WithFlags Nat) : Host.Outcome State Fault Refusal :=
      .next (s.launch (s.rowOps off d (s.lanes d a b g) [] inc))
    let three := [(p == 1, d.toNat), (q == 1, a.toNat), (r == 1, b.toNat % 16)]
    let two := [(p == 1, d.toNat), (q == 1, a.toNat)]
    (s.me.alike (if f = 1 then clsI else clsFI) (vTiles d a b') →
      exec (.vadd i d a b e p q r f) s = out 2 b' three (fun rd x y _ =>
        if isI ty then fitInt ty (f == 1) (intOf ty x + intOf ty y)
        else roundWith ty rd (sumExact [valueOf ty x, valueOf ty y])) ∧
      exec (.vsub i d a b e p q r f) s = out 2 b' three (fun rd x y _ =>
        if isI ty then fitInt ty (f == 1) (intOf ty x - intOf ty y)
        else roundWith ty rd (sumExact [valueOf ty x, (valueOf ty y).neg])) ∧
      exec (.vmul i d a b e p q r f) s = out 4 b' three (fun rd x y _ =>
        if isI ty then fitInt ty (f == 1) (intOf ty x * intOf ty y)
        else roundWith ty rd (mulExact (valueOf ty x) (valueOf ty y)))) ∧
    (s.me.alike clsFI (vTiles d a b') →
      exec (.vfma i d a b e p q r 0) s = out 4 b' three (fun rd x y z =>
        if isI ty then fitInt ty false (intOf ty x * intOf ty y + intOf ty z)
        else roundWith ty rd (fmaExact (valueOf ty x) (valueOf ty y) (valueOf ty z))) ∧
      exec (.vfma i d a b e p q r 1) s = out 4 b' three (fun rd x y z =>
        if isI ty then fitInt ty false (intOf ty x * intOf ty y - intOf ty z)
        else roundWith ty rd (fmaExact (valueOf ty x) (valueOf ty y) (valueOf ty z).neg)) ∧
      exec (.vfma i d a b e p q r 2) s = out 4 b' three (fun rd x y z =>
        if isI ty then fitInt ty false (intOf ty z - intOf ty x * intOf ty y)
        else roundWith ty rd (fmaExact (valueOf ty x).neg (valueOf ty y) (valueOf ty z))) ∧
      exec (.vmax i d a b e p q r) s = out 2 b' three (fun _ x y _ => (pick true ty x y, 0)) ∧
      exec (.vmin i d a b e p q r) s = out 2 b' three (fun _ x y _ => (pick false ty x y, 0))) ∧
    (s.me.alike (if f = 1 then clsI else clsFI) [d.toNat, a.toNat] →
      exec (.vabs i d a p q f) s = out 2 .none two (fun _ x _ _ => signOp false (f == 1) ty x) ∧
      exec (.vneg i d a p q f) s = out 2 .none two (fun _ x _ _ => signOp true (f == 1) ty x)) ∧
    (s.me.alike clsF [d.toNat, a.toNat] →
      exec (.vrnd i d a p q) s = out 3 .none two (fun rd x _ _ => roundIntegral ty rd x) ∧
      exec (.vexp2 i d a p q) s = out 8 .none two (fun rd x _ _ =>
        match pow2 (valueOf ty x) with
        | (.inf neg, 0) =>
          if (valueOf ty x).isZero then roundTo ty rne (.inf neg) else roundTo ty rd (.inf neg)
        | y => roundWith ty rd y))

/-- R350, R358: the lanewise words on element bits and the comparisons: bitwise AND, OR and XOR, shifts by b
bits 5:0, the selection by d's mask, and VCMP, which writes 1 or 0 into an integer tile. -/
def Obligations.LaneBitsComplete : Prop :=
  ∀ (s : State) (i : BitVec 3) (d a : BitVec 4) (b : BitVec 5) (e p q r : BitVec 1), s.roomy →
    let b' := s.vOperand b e
    let ty := (s.me.tile d.toNat).ty
    let w := elemBits ty
    let inc := [(p == 1, d.toNat), (q == 1, a.toNat), (r == 1, b.toNat % 16)]
    let out (g : Nat → Nat → Nat → Nat) : Host.Outcome State Fault Refusal :=
      .next (s.launch (s.rowOps 2 d (s.lanes d a b' (fun _ x y z => (g x y z, 0))) [] inc))
    (s.me.alike clsFIP (vTiles d a b') →
      exec (.vand i d a b e p q r) s = out (fun x y _ => x &&& y) ∧
      exec (.vor i d a b e p q r) s = out (fun x y _ => x ||| y) ∧
      exec (.vxor i d a b e p q r) s = out (fun x y _ => x ^^^ y) ∧
      exec (.vsel i d a b e p q r) s = out (fun x y z => if z = 0 then y else x)) ∧
    (s.me.alike clsI (vTiles d a b') →
      exec (.vshl i d a b e p q r) s = out (fun x y _ => x <<< (y % 64) % 2 ^ w) ∧
      exec (.vshr i d a b e p q r 0) s = out (fun x y _ => x >>> (y % 64)) ∧
      exec (.vshr i d a b e p q r 1) s = out (fun x y _ =>
        bitsOfInt w (signedOf w x / ((2 ^ (y % 64) : Nat) : Int)))) ∧
    (∀ f : BitVec 3, s.me.usable d.toNat → isI ty = true → s.me.alike clsFI ((vTiles d a b').drop 1) →
      (s.me.tile d.toNat).cols = (s.me.tile a.toNat).cols →
      let tya := (s.me.tile a.toNat).ty
      exec (.vcmp i d a b e p q r f) s = .next (s.launch (s.rowOps 2 d ((List.range (s.me.tile a.toNat).cols).map
        (fun j => (if vCompare f.toNat tya ((s.me.cursorRow a.toNat).getD j 0)
          ((s.me.bRow b' tya (s.me.tile a.toNat).cols).getD j 0) then 1 else 0, 0))) [] inc)))

/-- R353, R354, R357, R359: the reductions, scans, broadcasts, permutations, functions, conversions and moves of the V
engine: where their checks pass, each issues and puts its row writes and cursor steps in flight at its offset. VRCP and
VRSQ of a zero give the infinity of its sign and no flag; VPERM takes lane i's index from an index tile, with zero for an
index outside a's row, or rotates by a scalar; VCVT reads exact values, with the scales of a block type, and rounds each
once, quantises blocks, or fits integers. -/
def Obligations.RowWordsComplete : Prop :=
  ∀ (s : State) (i : BitVec 3) (d a : BitVec 4) (b : BitVec 5) (e p q r f : BitVec 1), s.roomy →
    let k := s.me
    let td := k.tile d.toNat
    let ta := k.tile a.toNat
    let xs := k.cursorRow a.toNat
    let rd := laneRounding (k.rounding 1) td td.cur
    let two := [(p == 1, d.toNat), (q == 1, a.toNat)]
    let out (off : Nat) (ys : List (WithFlags Nat)) (sc : List Byte) (inc : List (Bool × Nat)) :
      Host.Outcome State Fault Refusal := .next (s.launch (s.rowOps off d ys sc inc))
    (∀ n : BitVec 3, k.usable d.toNat → k.usable a.toNat → ta.ty = td.ty →
      (if 3 ≤ n.toNat then isI td.ty else isF td.ty || isI td.ty) = true →
      exec (.vred i d a p q n) s = out 6 (List.replicate td.cols (reduce n.toNat td.ty (rd 0) xs)) [] two) ∧
    (∀ n : BitVec 2, k.alike clsFI [d.toNat, a.toNat] →
      exec (.vscan i d a p q n) s =
        out 6 ((List.range td.cols).map (fun j => scanLane n.toNat td.ty (rd j) xs j)) [] two) ∧
    (k.alike clsFIP [d.toNat, a.toNat] → (s.reg b).toNat < ta.cols →
      exec (.vbcast i d a b p q) s = out 2 (List.replicate td.cols (xs.getD (s.reg b).toNat 0, 0)) [] two) ∧
    (k.alike clsFI [d.toNat] → exec (.viota i d b p) s = out 2 ((List.range td.cols).map (fun (j : Nat) =>
        if isI td.ty then fitInt td.ty false ((j : Int) + (s.reg b).toInt)
        else roundTo td.ty (rd j) (numOfInt ((j : Int) + (s.reg b).toInt)))) [] [(p == 1, d.toNat)]) ∧
    (k.alike clsFIP [d.toNat] → exec (.vmovScalar i d b p) s =
      out 2 ((List.replicate td.cols ((s.reg b).toNat % 2 ^ elemBits td.ty)).map (fun x => (x, 0))) []
        [(p == 1, d.toNat)]) ∧
    (k.alike (fun _ => true) [d.toNat, a.toNat] →
      exec (.vmov i d a p q) s = out 2 (xs.map (fun x => (x, 0))) (ta.rowScale ta.cur) two) ∧
    (k.alike clsF [d.toNat, a.toNat] → ∃ ys zs,
      exec (.vrcp i d a p q) s = out 8 ys [] two ∧ exec (.vrsq i d a p q) s = out 8 zs [] two ∧
      ∀ j, j < td.cols → (valueOf td.ty (xs.getD j 0)).isZero = false →
        ys[j]? = some (roundWith td.ty (rd j) (recip (valueOf td.ty (xs.getD j 0)))) ∧
        zs[j]? = some (roundWith td.ty (rd j) (recipSqrt (valueOf td.ty (xs.getD j 0))))) ∧
    (k.alike clsF [d.toNat, a.toNat] → ∃ ys zs,
      exec (.vrcp i d a p q) s = out 8 ys [] two ∧ exec (.vrsq i d a p q) s = out 8 zs [] two ∧
      ∀ j, j < td.cols → ∀ neg m, valueOf td.ty (xs.getD j 0) = .fin neg 0 m false →
        let inf := (if neg then (fmtOf td.ty).signBit else 0) + (fmtOf td.ty).infBits
        ys[j]? = some (inf, 0) ∧ zs[j]? = some (inf, 0)) ∧
    (e = 0 → let n := b.toNat % 16
      k.usable d.toNat → k.usable a.toNat → k.usable n → clsFIP td.ty = true → ta.ty = td.ty →
      isI (k.tile n).ty = true → (k.tile n).cols = td.cols →
      exec (.vperm i d a b e p q r) s = out 4 ((List.range td.cols).map (fun j =>
        let v := intOf (k.tile n).ty ((k.cursorRow n).getD j 0)
        (if 0 ≤ v ∧ v < ta.cols then xs.getD v.toNat 0 else 0, 0))) []
        [(p == 1, d.toNat), (q == 1, a.toNat), (r == 1, n)]) ∧
    (e = 1 → k.usable d.toNat → k.usable a.toNat → clsFIP td.ty = true → ta.ty = td.ty → ta.cols = td.cols →
      exec (.vperm i d a b e p q r) s = out 4 ((List.range td.cols).map (fun (j : Nat) =>
        (xs.getD (((j : Int) + (s.reg b).toInt) % (td.cols : Int)).toNat 0, 0))) []
        [(p == 1, d.toNat), (q == 1, a.toNat), (r == 1, b.toNat % 16)]) ∧
    (k.usable d.toNat → k.usable a.toNat → td.ty ≠ tE8M0 → (f = 1 → isI td.ty = true ∧ isI ta.ty = true) →
      ta.cols = td.cols → ∃ ys sc, exec (.vcvt i d a p q f) s = out 3 ys sc two ∧
        (isI td.ty = true → isI ta.ty = true → isK td.ty = false →
          ys = xs.map (fun x => fitInt td.ty (f == 1) (intOf ta.ty x)) ∧ sc = []) ∧
        let from_ := decodeRow ta.ty xs (ta.rowScale ta.cur)
        (isK ta.ty = false → from_ = (xs.map (valueOf ta.ty), 0)) ∧
        (isK td.ty = false → (isI td.ty = false ∨ isI ta.ty = false) → sc = [] ∧
          ys = from_.1.zipIdx.map (fun x => roundWith td.ty (rd x.2) (x.1, from_.2))) ∧
        (isK td.ty = true → let m := quantRow td.ty rd from_.1
          sc = m.2.1 ∧ ys = m.1.map (fun x => (x, m.2.2 ||| from_.2))))

/-- R355, R356, R360: VSORTK, VSEGR and VTMG on three tiles: where their checks pass they issue; VSORTK puts
the sorted keys of a into d and their columns into b, both at offset 24; VSEGR gives one lane for each run of equal keys
of b, its sum, maximum, minimum or key, and the fill value after them; VTMG merges two triples and moves its cursors
on by 2. -/
def Obligations.TripleWordsComplete : Prop :=
  ∀ (s : State) (i : BitVec 3) (d a b : BitVec 4) (p q r : BitVec 1), s.roomy →
    let k := s.me
    let td := k.tile d.toNat
    let ta := k.tile a.toNat
    let tb := k.tile b.toNat
    let rd := laneRounding (k.rounding 1) td td.cur
    let inc := [(p == 1, d.toNat), (q == 1, a.toNat), (r == 1, b.toNat)]
    k.usable d.toNat → k.usable a.toNat → k.usable b.toNat →
    (∀ f : BitVec 1, k.alike clsFI [d.toNat, a.toNat] → tb.ty ∈ [9, 10, 13, 14] → tb.cols = ta.cols →
      let ks := sortKeys (fun x y => if f = 1 then keyBefore ta.ty y x else keyBefore ta.ty x y)
        (k.cursorRow a.toNat).zipIdx
      exec (.vsortk i d a b p q r f) s = .next (s.launch (
        s.flight 24 (rowWrite d.toNat td td.cur
          (ks.map (fun x => if isF ta.ty && (valueOf ta.ty x.1).isNaN then canonNaN ta.ty else x.1)) [] 0) ::
        s.flight 24 (rowWrite b.toNat tb tb.cur (ks.map Prod.snd) [] 0) :: s.bumps (bumped inc) 1))) ∧
    (∀ f : BitVec 2, f ≠ 3 → clsFI tb.ty = true → clsFI td.ty = true → ta.ty = td.ty → td.cols = tb.cols →
      ta.cols = tb.cols → ∃ ys, exec (.vsegr i d a b p q r f) s = .next (s.launch (s.rowOps 8 d ys [] inc)) ∧
        ∀ j, j < td.cols → ys[j]? = some (match (keyRuns (k.cursorRow b.toNat).zipIdx)[j]? with
          | none => (segFill f.toNat td.ty, 0)
          | some run => reduce f.toNat td.ty (rd j) (run.2.map (fun n => (k.cursorRow a.toNat).getD n 0)))) ∧
    (clsFI tb.ty = true → td.ty = tb.ty → a = b → td.cols = tb.cols → ∃ ys,
      exec (.vsegr i d a b p q r 3) s = .next (s.launch (s.rowOps 8 d ys [] inc)) ∧
        ∀ j, j < td.cols → ys[j]? = some (match (keyRuns (k.cursorRow b.toNat).zipIdx)[j]? with
          | none => (2 ^ elemBits td.ty - 1, 0)
          | some run => (run.1, 0))) ∧
    ((∀ n ∈ [d.toNat, a.toNat, b.toNat], (k.tile n).ty = tFP32 ∧ (k.tile n).cols = 128 ∧ (k.tile n).cur % 2 = 0 ∧
        (k.tile n).cur + 1 < (k.tile n).rows) →
      let m := mergeTriples rd (ta.row ta.cur) (ta.row (ta.cur + 1)) (tb.row tb.cur) (tb.row (tb.cur + 1))
      exec (.vtmg i d a b p q r) s = .next (s.launch (s.flight 6 (rowWrite d.toNat td td.cur m.1 [] m.2.2) ::
        s.flight 6 (rowWrite d.toNat td (td.cur + 1) m.2.1 [] 0) :: s.bumps (bumped inc) 2)))

/-- R266, R352: an integer lane wraps modulo 2^w and sets no flag; or, saturating, it keeps a value in the type's range
and sets no flag, and beyond the range stands at the nearer end with the saturation flag and no other. -/
def Obligations.IntegerLanesFit : Prop :=
  ∀ ty, isI ty = true → ∀ v : Int,
    (fitInt ty false v).1 = (v % ((2 ^ elemBits ty : Nat) : Int)).toNat ∧ (fitInt ty false v).2 = 0 ∧
    (intMin ty ≤ v → v ≤ intMax ty → intOf ty (fitInt ty true v).1 = v ∧ (fitInt ty true v).2 = 0) ∧
    (intMax ty < v → intOf ty (fitInt ty true v).1 = intMax ty ∧ (fitInt ty true v).2 = flagSaturation) ∧
    (v < intMin ty → intOf ty (fitInt ty true v).1 = intMin ty ∧ (fitInt ty true v).2 = flagSaturation)

/-! ### The M engine -/

/-- R364 to R378: the words of the M engine, with a head of the format queue that is for them (R364) and, where they
read a slot, a slot that may be read (R367): each issues and pops the format queue. MWLD records the type of
the shadow plane, reads the 32 KiB of the slot in 16 beats from issue + 2 and loads the plane at issue + 132; MSWP
exchanges the planes; MFWD and MBWD read row j at issue + 2 + j and accumulate it at j + 132, and retire the slot
at rows + 131; MDRN drains row j at j + 3; MCLR clears at its issue; MHAD writes transforms of runs of 16 to 64
elements at 16, and MQNT quantised elements with their scales at 6. -/
def Obligations.MatrixWordsComplete : Prop :=
  ∀ (s : State) (i : BitVec 3) (k d : BitVec 4) (a : BitVec 2) (r : BitVec 7) (v : BitVec 1), s.cur.core < 256 →
    s.roomy →
    let n := k.toNat
    let rows := r.toNat + 1
    let ring := s.me.ring n
    let off := ring.slotAddr ring.mPosition
    let wt := fwWtype s.me.format
    let aty := fwAtype s.me.format
    let rest := s.me.stream.fmtq.drop 1
    let td := s.me.tile d.toNat
    let tk := s.me.tile n
    let rd := laneRounding (s.me.rounding 2) td td.cur
    (s.inHandler = false → s.formatReady 1 → s.slotReady n 128 (128 * scaleBytes wt) →
      clashTide (1 - s.me.act) (s.tide + 2) (s.tide + 132) true
        (s.me.occ.filter (fun o => s.tide ≤ o.last)) = none → s.me.act ≤ 1 →
      ∃ t, exec (.mwld i k r) s = .next t ∧ t.me.stream.fmtq = rest ∧ (t.me.ring n).mread = ring.mread + 1 ∧
        (vget {} t.me.planes (1 - s.me.act)).wt = wt ∧ t.held = s.held ∧
        (∀ j, j < 16 → s.flight (2 + j) (.mRead (s.mKey j) (off + 2048 * j) 2048)
          (banksOf (off + 2048 * j) 2048) ∈ t.me.inflight) ∧
        (scaleBytes wt ≠ 0 → s.flight 1 (.mRead (s.mKey 128) (off + 32768) (128 * scaleBytes wt))
          (banksOf (off + 32768) (128 * scaleBytes wt)) ∈ t.me.inflight) ∧
        s.flight 132 (.mPlane (1 - s.me.act) wt rows (s.mKey 0)) ∈ t.me.inflight ∧
        s.flight 132 (.mRetire n s.mKeys) ∈ t.me.inflight) ∧
    (s.inHandler = false → s.formatReady 2 → ∃ t, exec (.mswp i) s = .next t ∧ t.me.stream.fmtq = rest ∧
      t.me.act = 1 - s.me.act ∧ t.me.planes = s.me.planes ∧ t.me.inflight = s.me.inflight ∧ t.held = s.held) ∧
    (∀ bwd : Bool, s.inHandler = false → s.formatReady (if bwd then 4 else 3) →
      s.slotReady n rows (rows * scaleBytes aty) → pairs bwd wt aty = true →
      (vget {} s.me.planes s.me.act).wt = wt →
      clashTide s.me.act s.tide (s.tide + rows + 131) false
        (s.me.occ.filter (fun o => s.tide ≤ o.last)) = none →
      ∃ t, exec (if bwd then .mbwd i a k r else .mfwd i a k r) s = .next t ∧ t.me.stream.fmtq = rest ∧
        (t.me.ring n).mread = ring.mread + 1 ∧ t.held = s.held ∧
        (∀ j, j < rows → s.flight (2 + j) (.mRead (s.mKey j) (off + 256 * j) 256) (banksOf (off + 256 * j) 256)
            ∈ t.me.inflight ∧
          s.flight (j + 132) (.mAcc bwd a.toNat s.me.act j aty (s.mKey j) (s.mKey 128)) ∈ t.me.inflight) ∧
        s.flight (rows + 131) (.mRetire n s.mKeys) ∈ t.me.inflight) ∧
    (∀ z : BitVec 1, (s.inHandler = true → z = 0) → s.formatReady 7 → s.me.usable n → tk.cols = 128 →
      drainType tk.ty = true → tk.cur + rows ≤ tk.rows →
      exec (.mdrn i a k r v z) s = .next ((s.modMe Core.popFormat).launch
        ((List.range rows).map (fun j => s.flight (j + 3) (.mDrain a.toNat j n (tk.cur + j) tk.shape
          (fwSc s.me.format) (z == 1) (s.me.rounding 2))) ++ s.bumps (bumped [(v == 1, n)]) rows))) ∧
    (s.inHandler = false → s.formatReady 8 → ∃ t, exec (.mclr i a r) s = .next t ∧ t.me.stream.fmtq = rest ∧
      t.me.inflight = s.me.inflight ++
        [{ s.flight 0 (.mClear a.toNat rows) with exposed := false, handler := false }]) ∧
    (s.formatReady 5 → s.me.usable d.toNat → s.me.usable n → isF td.ty = true → isF tk.ty = true →
      td.cols = tk.cols → td.cols % hadPoints s.me.format = 0 →
      let p := hadPoints s.me.format
      let xs := (s.me.cursorRow n).map (valueOf tk.ty)
      exec (.mhad i k v d) s = .next ((s.modMe Core.popFormat).launch (s.rowOps 16 d
        ((List.range td.cols).map (fun j =>
          let y := hadamard ((xs.drop (j / p * p)).take p) (j % p)
          roundWith td.ty (rd j) (y.1.scale (hadScale s.me.format), y.2))) []
        [(v == 1, d.toNat), (v == 1, n)]))) ∧
    (s.formatReady 6 → s.me.usable d.toNat → s.me.usable n → isK td.ty = true → isF tk.ty = true →
      td.cols = tk.cols →
      let q := quantRow td.ty rd ((s.me.cursorRow n).map (fun x =>
        (valueOf tk.ty x).scale ((fwSc s.me.format : Int) - 127)))
      exec (.mqnt i k v d) s = .next ((s.modMe Core.popFormat).launch (
        s.flight 6 (rowWrite d.toNat td td.cur q.1 q.2.1 q.2.2) :: s.bumps (pairIncs v d k) 1)))

/-- R369, R372, R373, R375, R376: what the matrix operations do when they perform, for every register and row: a
streamed row adds its chain to one accumulator row and no other element changes; MCLR zeroes the first rows of one
accumulator; a drained row leaves the accumulators, and with z zeroes its own row, and writes its elements, rounded into
the tile's type with the scale, into one row of its tile; a plane takes the rows that were read and their scales, with
0x7F for the rows that are not loaded, and keeps the type that it was marked with. -/
def Obligations.MatrixOperationsPerform : Prop :=
  ∀ (o s : State) (c : Nat) (p : Perform), c < 256 →
    let k := o.core c
    let t := o.performOne c p s
    let acc (x : State) (n : Nat) : W32 := Sparse.get 0 (x.core c).acc n
    (∀ d, d ≠ c → t.core d = s.core d) ∧
    (∀ bwd a q row ty key tail, p.op = .mAcc bwd a q row ty key tail →
      let xs := mRowResult (vget {} k.planes q) bwd ty (k.accRow a row) (k.buffered key)
        (((k.buffered tail).drop (row * scaleBytes ty)).take (scaleBytes ty))
      xs.length = 128 ∧ (∀ n, n < 128 → acc t (accIndex a row + n) = BitVec.ofNat 32 (xs.getD n (0, 0)).1) ∧
      (∀ n, (n < accIndex a row ∨ accIndex a row + 128 ≤ n) → acc t n = acc s n) ∧
      (t.core c).planes = (s.core c).planes ∧ (t.core c).sreg = (s.core c).sreg ∧
      (t.core c).tiles = (s.core c).tiles) ∧
    (∀ a rows, p.op = .mClear a rows → ∀ n, acc t n =
      if a * 16384 ≤ n ∧ n < a * 16384 + rows * 128 then 0 else acc s n) ∧
    (∀ a row tl tr w sc ctx, p.op = .mDrain a row tl tr w sc false ctx → (t.core c).acc = (s.core c).acc) ∧
    (∀ a row tl tr w sc ctx, p.op = .mDrain a row tl tr w sc true ctx → ∀ n, acc t n =
      if accIndex a row ≤ n ∧ n < accIndex a row + 128 then 0 else acc s n) ∧
    (∀ a row tl tr w sc z ctx, p.op = .mDrain a row tl tr w sc z ctx → tl < 16 → ((s.core c).tile tl).a = false →
      let xs := (k.accRow a row).zipIdx.map (fun x =>
        roundTo (shapeType w) (ctx.at (row * 128 + x.2)) ((valueOf tFP32 x.1).scale ((sc : Int) - 127)))
      (t.core c).tile tl = (((s.core c).tile tl).patched
        [(tr * rowBytes w, packElems (elemBits (shapeType w)) (xs.map Prod.fst))] []).touched ∧
      (∀ n, n ≠ tl → (t.core c).tile n = (s.core c).tile n) ∧ (t.core c).sreg = (s.core c).sreg ∧
      (t.core c).fflags = raiseFlags (s.core c).fflags 2 (flagsOf xs)) ∧
    (∀ q wt rows key, p.op = .mPlane q wt rows key → q < 2 → rows ≤ 128 →
      let bs := k.bufferedRun key 16
      let tail := k.buffered (key + 128)
      let sb := scaleBytes wt
      let y := vget {} (t.core c).planes q
      y.ct = wt ∧ y.wt = (vget {} (s.core c).planes q).wt ∧
      (rows * 256 ≤ bs.length → ∀ n, n < rows * 256 → y.cols.get n = bs.getD n 0) ∧
      (rows * sb ≤ tail.length → ∀ n, n < 128 * sb →
        y.scales.get n = if n < rows * sb then tail.getD n 0 else 0x7F) ∧
      (∀ r, r ≠ q → vget {} (t.core c).planes r = vget {} (s.core c).planes r) ∧
      (t.core c).acc = (s.core c).acc ∧ (t.core c).sreg = (s.core c).sreg ∧ (t.core c).tiles = (s.core c).tiles)

/-! ### The T engine -/

/-- R343 to R345: the words of the T engine on tiles: TCFG with an acceptable shape, TZERO, row and column
moves between tiles of one TYPE and size, and the transpose. Each issues and puts in flight its write at its
offset: 1, 1, 2, 4 and 2 + the longer side. -/
def Obligations.TileWordsComplete : Prop :=
  ∀ (s : State) (i : BitVec 3) (x y : BitVec 4) (z : BitVec 5) (p q : BitVec 1), s.roomy →
    let k := s.me
    let tx := k.tile x.toNat
    let ty := k.tile y.toNat
    let v := s.reg z
    let move (rd rs : Nat) : Perform := s.flight 2 (.tileWrite x.toNat [(rd * rowBytes tx.shape, ty.rowData rs)]
      (if ty.rowScale rs = [] then [] else [(rd * rowScales tx.shape, ty.rowScale rs)]) 0)
    let es := elemBits tx.ty / 8
    ((tx.a = true → k.mode = .handler) → shapeOk (v.setWidth 32) = true →
      exec (.tcfg i x z) s = .next (s.launch [s.flight 1 (.tileCfg x.toNat (v.setWidth 32) false 0)])) ∧
    (k.usable x.toNat → exec (.tzero i x) s = .next (s.launch [s.flight 1 (.tileZero x.toNat)])) ∧
    (k.usable x.toNat → k.usable y.toNat → tx.ty = ty.ty →
      (tx.cols = ty.cols → tx.cur < tx.rows → ty.cur < ty.rows → exec (.trmov i x y q p) s =
        .next (s.launch (move tx.cur ty.cur :: s.bumps (bumped [(p == 1, x.toNat), (q == 1, y.toNat)]) 1))) ∧
      (tx.cols = ty.cols → wbits v 6 0 < tx.rows → wbits v 14 8 < ty.rows → exec (.trmovRows i x y z) s =
        .next (s.launch [move (wbits v 6 0) (wbits v 14 8)])) ∧
      (tx.rows = ty.rows → isK tx.ty = false → wbits v 6 0 < tx.cols → wbits v 14 8 < ty.cols →
        exec (.tcmov i x y z) s = .next (s.launch [s.flight 4 (.tileWrite x.toNat ((List.range tx.rows).map
          (fun r => ((r * tx.cols + wbits v 6 0) * es,
            ty.data.read ((r * ty.cols + wbits v 14 8) * es) es))) [] 0)])) ∧
      (isK ty.ty = false → tx.rows = ty.cols → tx.cols = ty.rows → ∃ bs, exec (.ttr i x y) s = .next (s.launch
        [s.flight (2 + Nat.max ty.rows ty.cols) (.tileWrite x.toNat [(0, bs)] [] 0)]) ∧
        ∀ r c b, r < ty.rows → c < ty.cols → b < es →
          bs[(c * ty.rows + r) * es + b]? = some (ty.data.get ((r * ty.cols + c) * es + b))))

/-- R346, R184 to R186: values. With h a handle that is valid for the word: TMKV makes a Live value of count 1
from a tile and copies its lines; TLDV configures a tile and copies the value's lines; DUP raises the count and
gives h; DROP lowers it, and at count 1 sends the value to Cooling until 512 tc later; REUSE at count 1 makes its
run the pending reuse run and moves its tag on; UPD and UPDR write in place at count 1 and give h; at a higher count,
as DUP at the maximum count 32,767, they copy the value into new storage, line by line, with their bytes changed, and give
its handle; CNT gives the count of a Live value, and 0 for a Cooling one. -/
def Obligations.ValueWordsComplete : Prop :=
  ∀ (s : State) (i : BitVec 3) (x y z : BitVec 5) (t4 : BitVec 4) (f : BitVec 1) (b : Nat), s.cur.core < 256 →
    s.roomy → x.toNat < 24 →
    let k := s.me
    let h := s.reg y
    let blk := k.block b
    let base := k.blockAddr b
    let tl := k.tile t4.toNat
    let w := blk.shape
    let es := elemBits (shapeType w) / 8
    let free := s.inHandler = false ∧ s.inEpilogue = false
    let copies (n : Nat) (c : Core) (ps : List (Nat × List Byte)) : List Perform :=
      s.flight 1 (.reg x.toNat (c.handleOf n)) :: (List.range (lineCount (imageBytes w))).map (fun j =>
        s.flight (2 + j) (.lineRead (c.blockAddr b + 64 * j) (some h) (c.blockAddr n + 64 * j)
          (((ps.flatMap (fun e => e.2.zipIdx.map (fun y => (e.1 + y.2, y.1)))).filter (fun e => e.1 / 64 == j)).map
            (fun e => (e.1 % 64, e.2)))) (banksOf (c.blockAddr b + 64 * j) 64))
    let row := ((s.reg x).toNat * rowBytes w, tl.rowData tl.cur)
    let scales := tl.rowScale tl.cur
    let scaled := (elemBytes w + (s.reg x).toNat * rowScales w, scales)
    (∀ n c, free → k.usable t4.toNat →
      k.produce ((imageBytes tl.shape + 4095) / 4096) tl.shape s.tide = .ok (n, c) →
      exec (.tmkv i x t4) s = .next ((s.modMe (fun _ => c)).launch (s.flight 1 (.reg x.toNat (c.handleOf n)) ::
        (List.range (lineCount (imageBytes tl.shape))).map (fun j => s.flight (2 + j)
          (.tileToLine t4.toNat (elemBytes tl.shape) (imageBytes tl.shape) (64 * j) (c.blockAddr n + 64 * j)))))) ∧
    (k.resolve h = .ok b → (tl.a = true → k.mode = .handler) → shapeOk w = true →
      exec (.tldv i t4 y) s = .next (s.launch (s.flight 1 (.tileCfg t4.toNat w true 0) ::
        (List.range (lineCount (imageBytes w))).map (fun j => s.flight (2 + j)
          (.lineToTile (base + 64 * j) h t4.toNat (elemBytes w) (imageBytes w) (64 * j))
            (banksOf (base + 64 * j) 64))))) ∧
    (k.resolve h = .ok b → exec (.cnt i x y) s = .next (s.launch [s.flight 1 (.reg x.toNat
      (w64 (if blk.state = .live then blk.count else 0)))])) ∧
    (free → k.resolveLive h = .ok b →
      (blk.count < 32767 → exec (.dup i x y) s = .next ((s.modMe (fun c => c.setBlock b
        { blk with count := blk.count + 1 })).launch [s.flight 1 (.reg x.toNat h)])) ∧
      (∀ n c, 32767 ≤ blk.count → k.allocate (blk.len + 1) w = .ok (n, c) → exec (.dup i x y) s =
        .next ((s.modMe (fun _ => c)).launch (copies n c []))) ∧
      (1 < blk.count → ∃ t, exec (.drop i y) s = .next t ∧ t.me.block b = { blk with count := blk.count - 1 } ∧
        t.held = s.held) ∧
      (blk.count ≤ 1 → ∃ t, exec (.drop i y) s = .next t ∧ t.held = s.held ∧
        (∀ j, j ≤ blk.len → (t.me.block (b + j)).state = .cooling ∧
          (t.me.block (b + j)).recl = s.tide + 512 ∧ (t.me.block (b + j)).tag = (k.block (b + j)).tag) ∧
        ∀ j, (j < b ∨ b + blk.len < j) → t.me.block j = k.block j) ∧
      (blk.count ≤ 1 → k.reuse = none → ∃ t, exec (.reuse i y) s = .next t ∧ t.held = s.held ∧
        t.me.reuse = some (b, blk.len + 1) ∧ (t.me.block b).tag = blk.tag + 1 ∧
        ∀ j, j ≤ blk.len → (t.me.block (b + j)).state = .reuse) ∧
      (∀ n c, 1 < blk.count → k.reuse = none → k.allocate (blk.len + 1) w = .ok (n, c) →
        ∃ t, exec (.reuse i y) s = .next t ∧ t.held = s.held ∧ t.me.reuse = some (n, blk.len + 1)) ∧
      (isK (shapeType w) = false → (s.reg x).toNat < shapeCount w → blk.count ≤ 1 →
        exec (.upd i x y z) s = .next (s.launch (s.flight 1 (.reg x.toNat h) ::
          (linePieces ((s.reg x).toNat * es) (bytesOfNat es (s.reg z).toNat)).zipIdx.map (fun e =>
            s.flight (2 + e.2) (.store (.scratch (base + e.1.1)) e.1.2)
              (banksOf (base + e.1.1) e.1.2.length))))) ∧
      (isK (shapeType w) = false → (s.reg x).toNat < shapeCount w → ∀ n c, 1 < blk.count →
        k.allocate (blk.len + 1) w = .ok (n, c) → ∃ t, exec (.upd i x y z) s = .next t ∧ t.held = s.held ∧
          t.me.block b = { blk with count := blk.count - 1 } ∧ t.me.inflight = k.inflight ++
            copies n c [((s.reg x).toNat * es, bytesOfNat es (s.reg z).toNat)]) ∧
      (k.usable t4.toNat → tl.ty = shapeType w → tl.cols = shapeCols w → (s.reg x).toNat < shapeRows w →
        blk.count ≤ 1 → ∃ t, exec (.updr i x y t4 f) s = .next t ∧ t.held = s.held ∧
          s.flight 1 (.reg x.toNat h) ∈ t.me.inflight ∧ (∀ e ∈ (linePieces ((s.reg x).toNat * rowBytes w)
            (tl.rowData tl.cur)).zipIdx, s.flight (2 + e.2) (.store (.scratch (base + e.1.1)) e.1.2)
              (banksOf (base + e.1.1) e.1.2.length) ∈ t.me.inflight) ∧
          (scales ≠ [] → ∀ e ∈ (linePieces scaled.1 scales).zipIdx (linePieces row.1 row.2).length,
            s.flight (2 + e.2) (.store (.scratch (base + e.1.1)) e.1.2) (banksOf (base + e.1.1) e.1.2.length)
              ∈ t.me.inflight) ∧
          (f = 1 → s.flight 1 (.cursor t4.toNat ((tl.cur + 1) % tl.rows)) ∈ t.me.inflight)) ∧
      (k.usable t4.toNat → tl.ty = shapeType w → tl.cols = shapeCols w → (s.reg x).toNat < shapeRows w → ∀ n c,
        1 < blk.count → k.allocate (blk.len + 1) w = .ok (n, c) → ∃ t, exec (.updr i x y t4 f) s = .next t ∧
          t.held = s.held ∧ t.me.block b = { blk with count := blk.count - 1 } ∧ t.me.inflight = k.inflight ++
            copies n c (row :: if scales = [] then [] else [scaled]) ++ s.bumps (bumped [(f == 1, t4.toNat)]) 1))

/-! ### The L engine -/

/-- R382 to R387: scalar and tile loads. A load of scratchpad or cohort memory puts its reads in flight, the first
at issue + 3 or issue + 12; a load of global memory asks for its bytes and marks its destination pending; LDG does
so by what its pointer names, and reads a value through its handle; LDT brings in an image, or a result record as
two rows; LDR one row; LDTR reads its source in beats and writes the transpose at issue + 134. -/
def Obligations.LoadWordsComplete : Prop :=
  ∀ (s : State) (i : BitVec 3) (d b x : BitVec 5) (td : BitVec 4) (p z : BitVec 2) (g n : BitVec 1),
    s.cur.core < 256 → s.roomy →
    let k := s.me
    let ea := (s.ea b x).toNat
    let size := 2 ^ z.toNat
    let sx := g == 1
    let at_ := placeOf s.cur.core p.toNat ea
    let t := k.tile td.toNat
    let w := t.shape
    let len := 64 * lineCount (imageBytes w)
    let rb := rowBytes w
    let ptr := deref k (s.ea b x) .all (fun a => aligned a size)
    let timed (off : Nat) (op : POp) (banks : List Nat) : Prop := ∃ u, exec (.ldg i d b x g z) s = .next u ∧
      s.flight off op banks ∈ u.me.inflight ∧ u.held = s.held ∧
      (d ≠ 0 → ⟨.reg d.toNat, s.tide, some (s.tide + off)⟩ ∈ u.me.pend)
    (d.toNat < 24 → (p = 1 ∨ p = 2) → k.fits p.toNat ea size false → exec (.ld i d b x p g z) s =
      .next (s.launch (s.beatOps 3 at_ size (fun _ _ => .load d.toNat at_ size sx)))) ∧
    (∀ e, d.toNat < 24 → k.fits 0 ea size false → s.mapped ea .load e →
      ∃ u, exec (.ld i d b x 0 g z) s = .next u ∧ (d ≠ 0 → u.me.isPending (.reg d.toNat) = true) ∧
        s.asks u (s.asked (.load d.toNat size sx) (pieceOf e ea size) [e])) ∧
    (∀ va e, d.toNat < 24 → ptr = .ok (.global va) → s.mapped va .load e →
      ∃ u, exec (.ldg i d b x g z) s = .next u ∧ (d ≠ 0 → u.me.isPending (.reg d.toNat) = true) ∧
        s.asks u (s.asked (.load d.toNat size sx) (pieceOf e va size) [e])) ∧
    (∀ a, d.toNat < 24 → ptr = .ok (.scratch a) → k.tagClash a size = none →
      timed 3 (.load d.toNat (.scratch a) size sx) (banksOf a size)) ∧
    (∀ a, d.toNat < 24 → ptr = .ok (.cohort a) →
      timed 12 (.load d.toNat (.cohort (cohortOf s.cur.core * 2 ^ 23 + a)) size sx) []) ∧
    (∀ tag j v, d.toNat < 24 → ptr = .ok (.value tag j) → k.resolve (s.ea b x) = .ok v →
      timed 3 (.loadValue d.toNat (s.ea b x) 0 size sx) (banksOf (k.blockAddr v) size)) ∧
    (k.usable td.toNat →
      ((p = 1 ∨ p = 2) → k.fits p.toNat ea len false → exec (.ldt i td b x p n 0) s = .next (s.launch
        (s.beatOps 3 at_ len (fun off m => .tileLoad td.toNat (elemBytes w) off (at_.plus off) m)))) ∧
      (∀ e, k.fits 0 ea len false → s.mapped ea .load e → ∃ u, exec (.ldt i td b x 0 n 0) s = .next u ∧
        u.me.isPending (.tile td.toNat) = true ∧
        s.asks u (s.asked (.loadTile td.toNat (elemBytes w) len) (pieceOf e ea len) [e])) ∧
      (t.ty = tFP32 → t.cols = 128 → t.cur % 2 = 0 → t.cur + 1 < t.rows → k.fits 1 ea 576 false →
        exec (.ldt i td b x p n 1) s = .next (s.launch (s.flight 3 (.tripLoad td.toNat t.cur (.scratch ea))
          (banksOf ea 576) :: s.bumps (bumped [(n == 1, td.toNat)]) 2))) ∧
      (isK t.ty = false → (p = 1 ∨ p = 2) → k.fits p.toNat ea (64 * lineCount rb) false →
        exec (.ldr i td b x p n) s = .next (s.launch (s.beatOps 3 at_ (64 * lineCount rb) (fun o m =>
          .rowLoad td.toNat (t.cur * rb + o) (at_.plus o) (Nat.min m (rb - o))) ++
            s.bumps (bumped [(n == 1, td.toNat)]) 1))) ∧
      (∀ e, isK t.ty = false → k.fits 0 ea (64 * lineCount rb) false → s.mapped ea .load e →
        ∃ u, exec (.ldr i td b x 0 n) s = .next u ∧ u.me.isPending (.tile td.toNat) = true ∧
          s.asks u (s.asked (.loadRow td.toNat (t.cur * rb) rb) (pieceOf e ea (64 * lineCount rb)) [e]) ∧
          (n = 1 → s.flight 1 (.cursor td.toNat ((t.cur + 1) % t.rows)) ∈ u.me.inflight)) ∧
      (t.ty = tBF16 → t.rows % 32 = 0 → k.fits 1 ea (ldtrBytes w) false →
        exec (.ldtr i td b x) s = .next (s.launch (s.beatOps 3 (.scratch ea) (ldtrBytes w) (fun o m =>
          .ldtrRead td.toNat w (ea + o) m (o / 2048)) ++ [s.flight 134 (.ldtrWrite td.toNat w)]))))

/-- R388, R389: GTH reads its list at issue, and row r of the tile at issue + 3 + r, or asks for all rows of global
memory at once; LDV makes a Live value, writes its handle at issue + 1, and copies its lines, or asks for them. -/
def Obligations.GatherAndValueLoadsComplete : Prop :=
  ∀ (s : State) (i : BitVec 3) (d b h : BitVec 5) (td : BitVec 4), s.cur.core < 256 → s.roomy →
    let k := s.me
    let n := td.toNat
    let t := k.tile n
    let rb := rowBytes t.shape
    let list := (s.reg h).toNat
    let rows := k.rowAddresses (s.reg b) list t.rows rb
    let use := s.flight 0 .use (banksOf list (4 * t.rows))
    let w : W32 := (s.reg h).setWidth 32
    let src := (s.reg b).toNat
    let len := 64 * lineCount (imageBytes w)
    (s.rowsReady n 1 (s.reg b) (s.reg h) false → exec (.gth i td b h 1) s = .next (s.launch (use ::
      rows.zipIdx.map (fun a => s.flight (3 + a.2) (.rowLoad n (a.2 * rb) (.scratch a.1) rb) (banksOf a.1 rb))))) ∧
    (∀ es, s.rowsReady n 0 (s.reg b) (s.reg h) false → s.mappedAll rows .load es →
      ∃ u, exec (.gth i td b h 0) s = .next u ∧ u.me.isPending (.tile n) = true ∧ use ∈ u.me.inflight ∧
        s.asks u (s.asked (.loadRows n rb) (rowPieces es rows rb) es)) ∧
    (∀ v c, d.toNat < 24 → s.inHandler = false → s.inEpilogue = false → shapeFits 32768 w = true →
      k.produce ((imageBytes w + 4095) / 4096) w s.tide = .ok (v, c) →
      (k.fits 1 src len false → exec (.ldv i d b h 1) s = .next ((s.modMe (fun _ => c)).launch (
        s.flight 1 (.reg d.toNat (c.handleOf v)) :: (List.range (lineCount (imageBytes w))).map (fun j =>
          s.flight (3 + j / 32) (.lineRead (src + 64 * j) none (c.blockAddr v + 64 * j) [])
            (banksOf (src + 64 * j) 64))))) ∧
      (∀ e, k.fits 0 src len false → s.mapped src .load e → ∃ u, exec (.ldv i d b h 0) s = .next u ∧
        s.flight 1 (.reg d.toNat (c.handleOf v)) ∈ u.me.inflight ∧ u.me.isPending (.value v) = true ∧
        (∀ m, m < blocksOf len → (u.me.block (v + m)).holds = (c.block (v + m)).holds + 1) ∧
        s.asks u (s.asked (.loadValue v len) (pieceOf e src len) [e])))

/-! ### The W engine -/

/-- R391, R392, R388: the stores. A store of scratchpad or cohort memory puts the bytes in flight at the address
that the word names, beat by beat from issue + 4 or + 12; one of global memory asks for them to be stored there; no
content changes at issue. STG stores where its pointer points, STT an image or its BF16 form, SCT rows, and STV a
value, which it holds meanwhile. -/
def Obligations.StoreWordsComplete : Prop :=
  ∀ (s : State) (i : BitVec 3) (r b x : BitVec 5) (tr : BitVec 4) (p z : BitVec 2) (n : BitVec 1),
    s.cur.core < 256 → s.roomy →
    let k := s.me
    let ea := (s.ea b x).toNat
    let bs := bytesOfNat (2 ^ z.toNat) (s.reg r).toNat
    let put (q : Place) (xs : List Byte) : List Perform :=
      s.beatOps 4 q xs.length (fun off m => .store (q.plus off) ((xs.drop off).take m))
    let t := k.tile tr.toNat
    let im := if n = 1 then t.narrowed (k.rounding 5) else (t.image, 0)
    let rb := rowBytes t.shape
    let list := (s.reg x).toNat
    let rows := k.rowAddresses (s.reg b) list t.rows rb
    let use := s.flight 0 .use (banksOf list (4 * t.rows))
    ((p = 1 ∨ p = 2) → k.fits p.toNat ea bs.length true →
      exec (.st i r b x p z) s = .next (s.launch (put (placeOf s.cur.core p.toNat ea) bs))) ∧
    (∀ e, k.fits 0 ea bs.length true → s.mapped ea .store e →
      ∃ u, exec (.st i r b x 0 z) s = .next u ∧ u.me.inflight = s.me.inflight ∧
        s.asks u (s.asked (.store bs) (pieceOf e ea bs.length) [e])) ∧
    (∀ a, k.storeTarget (s.ea b x) (2 ^ z.toNat) = .ok (.scratch a) →
      exec (.stg i r b x z) s = .next (s.launch (put (.scratch a) bs))) ∧
    (∀ a, k.storeTarget (s.ea b x) (2 ^ z.toNat) = .ok (.cohort a) →
      exec (.stg i r b x z) s = .next (s.launch (put (.cohort (cohortOf s.cur.core * 2 ^ 23 + a)) bs))) ∧
    (∀ va e, k.storeTarget (s.ea b x) (2 ^ z.toNat) = .ok (.global va) → s.mapped va .store e →
      ∃ u, exec (.stg i r b x z) s = .next u ∧ u.me.inflight = s.me.inflight ∧
        s.asks u (s.asked (.store bs) (pieceOf e va bs.length) [e])) ∧
    (k.usable tr.toNat → (n = 1 → t.ty = tFP32) →
      let flags := if n = 1 then [s.flight 4 (.flagBits 5 im.2)] else []
      ((p = 1 ∨ p = 2) → k.fits p.toNat ea im.1.length true →
        exec (.stt i tr b x p n) s = .next (s.launch (flags ++ put (placeOf s.cur.core p.toNat ea) im.1))) ∧
      (∀ e, k.fits 0 ea im.1.length true → s.mapped ea .store e → ∃ u, exec (.stt i tr b x 0 n) s = .next u ∧
        u.me.inflight = s.me.inflight ++ flags ∧
        s.asks u (s.asked (.store im.1) (pieceOf e ea im.1.length) [e]))) ∧
    (s.rowsReady tr.toNat 1 (s.reg b) (s.reg x) true → exec (.sct i tr b x 1) s = .next (s.launch (use ::
      rows.zipIdx.map (fun a => s.flight (4 + a.2) (.store (.scratch a.1) (t.data.read (a.2 * rb) rb))
        (banksOf a.1 rb))))) ∧
    (∀ es, s.rowsReady tr.toNat 0 (s.reg b) (s.reg x) true → s.mappedAll rows .store es →
      ∃ u, exec (.sct i tr b x 0) s = .next u ∧ u.me.inflight = s.me.inflight ++ [use] ∧
        s.asks u (s.asked (.store (t.data.read 0 (elemBytes t.shape))) (rowPieces es rows rb) es)) ∧
    (∀ v e, k.resolve (s.reg r) = .ok v → let len := imageLines (k.block v).shape
      k.fits 0 ea len true → s.mapped ea .store e → ∃ u, exec (.stv i r b x) s = .next u ∧
        (∀ m, m < blocksOf len → (u.me.block (v + m)).holds = (k.block (v + m)).holds + 1) ∧
        s.asks u (s.asked (.storeValue v 0 len) (pieceOf e ea len) [e]))

/-- R393 to R399: the near-memory words of the W engine. Each sends its requests to the base die of what they name
(or, for a target in another package, to its home), and awaits acknowledgements; KVA reads its token at issue + 3; a
status register is marked pending; no content changes at issue. RED of a row sends its elements in ascending order. -/
def Obligations.NearWordsComplete : Prop :=
  ∀ (s : State) (i : BitVec 3) (r b x : BitVec 5) (tr : BitVec 4) (o : BitVec 3) (n : BitVec 1),
    s.cur.core < 256 → s.roomy →
    let k := s.me
    let ea := (s.ea b x).toNat
    let v : W32 := (s.reg r).setWidth 32
    let t := k.tile tr.toNat
    let vs := (k.cursorRow tr.toNat).map (BitVec.ofNat 32)
    let sel := s.reg x
    let room := k.outstanding + 1 ≤ 4096
    let ok := s.preemptible = true → k.epi.active = true
    let pend (u : State) : Prop := r ≠ 0 → u.me.isPending (.reg r.toNat) = true
    (∀ e, ok → ea + 4 ≤ 2 ^ 57 → ea % 4 = 0 → s.mapped ea .reduce e →
      (∀ dpa, e.target ea = .device dpa → ∃ u, exec (.red i r b x o) s = .next u ∧
        s.sends u (s.message (s.stackOf dpa) (.red o.toNat dpa v) 0 1 none (w64 ea))) ∧
      (∀ part pod off, e.target ea = .pod part pod off → ∃ u, exec (.red i r b x o) s = .next u ∧
        s.sends u (s.message 0 (.red o.toNat off v) 0 1 (some pod) (w64 ea)))) ∧
    (∀ e dpa, ok → k.usable tr.toNat → reduceType o.toNat t.ty = true → ea % 2 ^ 16 + 4 * vs.length ≤ 2 ^ 16 →
      ea + 4 * vs.length ≤ 2 ^ 57 → ea % 4 = 0 → k.outstanding + vs.length ≤ 4096 →
      s.translate s.cur.core ea .reduce = .hit e → e.va ≤ ea → e.target ea = .device dpa →
      ∃ u, exec (.redRow i tr b x n o) s = .next u ∧ u.held = s.held ∧
        (u.msgs.drop s.msgs.length).map Msg.kind = vs.zipIdx.map (fun y => .red o.toNat (dpa + 4 * y.2) y.1) ∧
        (n = 1 → s.flight 1 (.cursor tr.toNat ((t.cur + 1) % t.rows)) ∈ u.me.inflight)) ∧
    (∀ off page, r.toNat < 24 → k.ownRegion (s.reg b) 512 = .ok off → wbits sel 31 27 = 0 →
      s.selected sel = .ok page → room → ∃ u, exec (.kva i r b x) s = .next u ∧ pend u ∧
        s.flight 3 (.kvaRead off s.fresh) (banksOf off 512) ∈ u.me.inflight ∧
        s.sends u (s.message (page.1 / 2 ^ 21) (.kvAppend page.1 page.2 (wbit sel 26) (wbits sel 25 24) []
          (wbit k.hmode 3)) r.toNat 3)) ∧
    (∀ page, r.toNat < 24 → wbits sel 31 24 = 0 → s.selected sel = .ok page → room →
      let arg := (s.reg b).toNat
      let st := page.1 / 2 ^ 21
      (arg < 256 → (∃ u, exec (.kvr i r b x 0) s = .next u ∧ pend u ∧
          s.sends u (s.message st (.kvRescale page.1 page.2 false arg) r.toNat)) ∧
        ∃ u, exec (.kvr i r b x 1) s = .next u ∧ pend u ∧
          s.sends u (s.message st (.kvRescale page.1 page.2 true arg) r.toNat)) ∧
      (arg < 2 ^ 24 → (arg ≠ 0 → (s.pageCheck arg).1 = true) → ∃ u, exec (.kvr i r b x 2) s = .next u ∧ pend u ∧
          s.sends u (s.message st (.kvFork page.1 page.2 arg) r.toNat)) ∧
      (arg = 0 → ∃ u, exec (.kvr i r b x 3) s = .next u ∧ pend u ∧
          s.sends u (s.message st (.kvRelease page.1 page.2) r.toNat))) ∧
    (wbits sel 63 26 = 0 → k.usable tr.toNat → (t.ty = tFP32 ∨ t.ty = tBF16) → t.rows * t.cols = 2048 →
      ∃ u, exec (.bws i tr x) s = .next u ∧ s.sends u (s.message (2 * wbits sel 25 24 + wbits sel 11 0 % 2)
        (.bws (wbits sel 11 0) (wbits sel 15 12) (wbits sel 23 16) t.widened s.myTask.run))) ∧
    (wbits sel 63 26 = 0 → wbits sel 23 16 = 0 →
      (ok → ∃ u, exec (.bwc i x) s = .next u ∧ s.sends u (s.message (2 * wbits sel 25 24 + wbits sel 11 0 % 2)
        (.bwc (wbits sel 11 0) (wbits sel 15 12) s.myTask.run))) ∧
      ∃ u, exec (.bwa i x) s = .next u ∧ s.sends u (s.message (2 * wbits sel 25 24 + wbits sel 11 0 % 2)
        (.bwa (wbits sel 11 0) (wbits sel 15 12) s.myTask.run)))

/-! ### The Y engine -/

/-- R410 to R417, R425: acquire loads, release stores, atomics, compare-and-swap, lock releases and FILL. At a
scratchpad or cohort address the access performs at issue + 3 or + 4, or at issue + 12 with a use of the cohort's
slot; at a global address the word asks for it with its scope and order; a register that takes the old unit is
marked pending then. -/
def Obligations.AtomicWordsComplete : Prop :=
  ∀ (s : State) (i : BitVec 3) (d a b : BitVec 5) (g w : BitVec 1) (z : BitVec 2) (f : BitVec 4) (c : BitVec 3)
    (o : BitVec 2), s.cur.core < 256 → s.roomy → d.toNat < 24 → s.quiet c.toNat o.toNat →
    let k := s.me
    let p := s.reg a
    let size := 2 ^ z.toNat
    let bs := bytesOfNat size (s.reg b).toNat
    let mem (x : Nat) : Place := .cohort (cohortOf s.cur.core * 2 ^ 23 + x)
    let slot := s.flight 0 .use [cohortSlot]
    let ptr := deref k p .all (fun x => aligned x size)
    let n := if w = 1 then 4 else 8
    let pend (u : State) (r : Nat) : Prop := r ≠ 0 → u.me.isPending (.reg r) = true
    let runs (target : Checked Deref) (ins : Instr) (r m : Nat) (op : Rmw) : Prop :=
      (∀ x, target = .ok (.scratch x) → k.tagClash x m = none →
        exec ins s = .next (s.launch [s.flight 4 (.rmw r (.scratch x) op p {}) (banksOf x m)])) ∧
      (∀ x, target = .ok (.cohort x) → ∃ u sync, exec ins s = .next u ∧ u.held = s.held ∧ slot ∈ u.me.inflight ∧
        s.flight 12 (.rmw r (mem x) op p sync) ∈ u.me.inflight ∧ (sync.acq.isSome = true ↔ o.toNat % 2 = 1) ∧
        sync.rel = if 2 ≤ o.toNat then some (c.toNat, k.covered) else none) ∧
      ∀ va e, target = .ok (.global va) → s.mapped va .atomic e → ∃ u, exec ins s = .next u ∧ pend u r ∧
        s.asks u (s.asked (.rmw r op p) (pieceOf e va m) [e] c.toNat o.toNat)
    (∀ x, ptr = .ok (.scratch x) → k.tagClash x size = none → exec (.ldaq i d a g z c o) s = .next (s.launch
      [s.flight 3 (.load d.toNat (.scratch x) size (g == 1)) (banksOf x size)])) ∧
    (∀ x, ptr = .ok (.cohort x) → ∃ u, exec (.ldaq i d a g z c o) s = .next u ∧ u.held = s.held ∧
      slot ∈ u.me.inflight ∧ s.flight 12 (.load d.toNat (mem x) size (g == 1)) ∈ u.me.inflight) ∧
    (∀ tag j v, ptr = .ok (.value tag j) → k.resolve p = .ok v → exec (.ldaq i d a g z c o) s = .next (s.launch
      [s.flight 3 (.loadValue d.toNat p 0 size (g == 1)) (banksOf (k.blockAddr v) size)])) ∧
    (∀ va e, ptr = .ok (.global va) → s.mapped va .load e → ∃ u, exec (.ldaq i d a g z c o) s = .next u ∧
      pend u d.toNat ∧ s.asks u (s.asked (.load d.toNat size (g == 1)) (pieceOf e va size) [e] c.toNat o.toNat)) ∧
    (∀ x, k.storeTarget p size = .ok (.scratch x) → exec (.strl i z a b c o) s = .next (s.launch
      [s.flight 4 (.store (.scratch x) bs) (banksOf x bs.length)])) ∧
    (∀ x, k.storeTarget p size = .ok (.cohort x) → ∃ u, exec (.strl i z a b c o) s = .next u ∧ u.held = s.held ∧
      slot ∈ u.me.inflight ∧ s.flight 12 (.store (mem x) bs) ∈ u.me.inflight ∧
      (2 ≤ o.toNat → s.flight 12 (.release (.cohort (cohortOf s.cur.core * 2 ^ 23 + x) bs.length) c.toNat k.covered)
        ∈ u.me.inflight)) ∧
    (∀ va e, k.storeTarget p size = .ok (.global va) → s.mapped va .store e →
      ∃ u, exec (.strl i z a b c o) s = .next u ∧
        s.asks u (s.asked (.store bs) (pieceOf e va bs.length) [e] c.toNat o.toNat)) ∧
    runs (k.storeTarget p n) (.atom i d a w f c o) d.toNat n (.atom f.toNat (w == 1) (s.reg d)) ∧
    runs (k.storeTarget p 8) (.cas i d a b c o) d.toNat 8 (.cas (s.reg d) (s.reg b)) ∧
    runs (k.lockTarget p 8) (.rul i a c o) 0 8 .rul ∧ runs (k.lockTarget p 8) (.wul i a c o) 0 8 .wul ∧
    runs (k.lockTarget p 16) (.fill i a b c o) 0 16 (.fill (s.reg b))

/-- R412, R416, R419 to R422, R426: FENCE and, with requests outstanding, RFENCE take their places in core order;
RLK, WLK, TAKE, BAR, WAITF and RCON set the class of their segment's gate. -/
def Obligations.GateAndFenceWordsComplete : Prop :=
  ∀ (s : State) (i : BitVec 3) (d a : BitVec 5) (r : BitVec 4) (c : BitVec 3) (o : BitVec 2), s.cur.core < 256 →
    let k := s.me
    let p := s.reg a
    let n := r.toNat
    let scope := c.toNat
    let ord := o.toNat
    let unit (x : Nat) : LockAt := .cohort (cohortOf s.cur.core * 2 ^ 23 + x)
    let stands (ins : Instr) (op : GOp) (sc or : Nat) : Prop := ∃ u, exec ins s = .next u ∧ u.held = s.held ∧
      ∃ q, u.me.reqs = k.reqs ++ [q] ∧ q.id = s.fresh ∧ q.op = op ∧ q.scope = sc ∧ q.order = or ∧ q.pieces = []
    let sets (ins : Instr) (cls : GateClass) : Prop := ∃ u, exec ins s = .next u ∧ s.gates u cls
    stands (.fence i c o) .fence scope ord ∧
    (k.nearPending = true → stands (.rfence i) .rfence 4 0) ∧
    (k.nearPending = false → s.quiet 4 2 → exec (.rfence i) s = .next s) ∧
    (s.gatePlace →
      (∀ x, k.lockTarget p 8 = .ok (.cohort x) → sets (.rlk i a c o) (.rlk (unit x) scope ord) ∧
        sets (.wlk i a c o) (.wlk (unit x) scope ord)) ∧
      (∀ va e, k.lockTarget p 8 = .ok (.global va) → s.mapped va .atomic e →
        sets (.rlk i a c o) (.rlk (.global va (e.target va) e.id) scope ord) ∧
        sets (.wlk i a c o) (.wlk (.global va (e.target va) e.id) scope ord)) ∧
      (∀ x, d.toNat < 24 → k.lockTarget p 16 = .ok (.cohort x) →
        sets (.take i d a c o) (.take d.toNat (unit x) scope ord)) ∧
      (∀ va e, d.toNat < 24 → k.lockTarget p 16 = .ok (.global va) → s.mapped va .atomic e →
        sets (.take i d a c o) (.take d.toNat (.global va (e.target va) e.id) scope ord)) ∧
      (p = 0 → 0 < s.gangSize → k.gidx < s.gangSize →
        sets (.bar i a c o) (.bar (some (0, s.gangSize - 1)) scope ord)) ∧
      (wbit p 16 = true → wbits p 7 0 ≤ k.gidx → k.gidx ≤ wbits p 15 8 → wbits p 15 8 < s.gangSize →
        sets (.bar i a c o) (.bar (some (wbits p 7 0, wbits p 15 8)) scope ord)) ∧
      (∀ f : BitVec 5, (wbit p 32 = true ∨ reaches (k.flag f.toNat) (p.setWidth 32) = true ∧ k.owed f.toNat = 0) →
        sets (.waitf i f a c o) (.waitf f.toNat (p.setWidth 32) scope ord)) ∧
      (d.toNat < 24 → s.inEpilogue = false → (k.ring n).enabled = true → (k.ring n).mread = 0 →
        sets (.rcon i d r) (.rcon d.toNat n)))

/-- R421, R423, R427, R429: SIGF to the own core, to a core of the gang, and to one of another gang; the ring words
put their ring operation in flight at issue + 1; SPAWN reads its record at issue + 3 and takes its place in core
order; SEND puts the tile on its way, 256 bytes in a half tc from issue + 4, when the route ends at a core of the gang. -/
def Obligations.SignalRingSpawnSendComplete : Prop :=
  ∀ (s : State) (i : BitVec 3) (d a b : BitVec 5) (r : BitVec 4) (c : BitVec 3) (o : BitVec 2), s.cur.core < 256 →
    s.roomy → s.quiet c.toNat o.toNat →
    let k := s.me
    let p := s.reg a
    let n := r.toNat
    let ring := k.ring n
    let v : W32 := p.setWidth 32
    let free := s.inEpilogue = false ∧ ring.enabled = true
    (∀ (f : BitVec 5) (t : Nat), (wbit p 8 = false ∧ t = s.cur.core ∨
        wbit p 8 = true ∧ s.physical k.part (wbits p 7 0) = some t) →
      (t = s.cur.core → ∃ u, exec (.sigf i f a c o) s = .next u ∧ u.held = s.held ∧
        s.flight 1 (.signal f.toNat) ∈ u.me.inflight) ∧
      (t ≠ s.cur.core → s.myTask.cores.contains t = true → ∃ u m, exec (.sigf i f a c o) s = .next u ∧
        u.held = s.held ∧ u.flits = s.flits ++ [m] ∧ m.due = s.tide + 8 ∧ m.task = k.task ∧
        ∃ x, m.kind = .signal t f.toNat k.part x) ∧
      (t ≠ s.cur.core → s.myTask.cores.contains t = false → k.outstanding + 1 ≤ 4096 →
        ∃ u, exec (.sigf i f a c o) s = .next u ∧
          s.asks u (s.asked (.signal t f.toNat) [] [] c.toNat o.toNat))) ∧
    (free → d.toNat < 24 →
      exec (.rres i d r) s = .next (s.launch [s.flight 1 (.ringReserve n 1 d.toNat none)])) ∧
    (free → within v ring.pub ring.rsv = true → v ∉ ring.published →
      exec (.rpub i a r) s = .next (s.launch [s.flight 1 (.ringPublish n v)])) ∧
    (free → within v ring.rel ring.con = true → v ∉ ring.released →
      exec (.rrel i a r) s = .next (s.launch [s.flight 1 (.ringRelease n v)])) ∧
    (∀ off, d.toNat < 24 → k.ownRegion p 64 = .ok off → k.outstanding + 1 ≤ 4096 →
      ∃ u, exec (.spawn i d a b) s = .next u ∧ (d ≠ 0 → u.me.isPending (.reg d.toNat) = true) ∧
        s.flight 3 (.spawnRead s.fresh off) (banksOf off 64) ∈ u.me.inflight ∧
        s.asks u (s.asked (.spawn d.toNat (s.reg b) []) [] [] 3 2)) ∧
    (∀ h t0 t1 t2 t3 t4 t5 t6 : BitVec 2,
      let route := routeFrom s.cur.core h.toNat
        [t0.toNat, t1.toNat, t2.toNat, t3.toNat, t4.toNat, t5.toNat, t6.toNat]
      let image := (k.tile n).image
      let count := (image.length + 255) / 256
      s.inHandler = false → k.usable n → route.left = false → s.myTask.cores.contains route.stop = true →
      ∃ u, exec (.send i r h t0 t1 t2 t3 t4 t5 t6) s = .next u ∧ u.held = s.held ∧
        u.flits.length = s.flits.length + count ∧ ∀ j, j < count → ∃ m ∈ u.flits, m.task = k.task ∧
          m.due = s.tide + 4 + j / 2 + route.before ∧ m.legs = route.legs ∧
          m.kind = .tile s.fresh s.cur.core route.stop j count (if j = 0 then image else []))

/-! ### The X engine -/

/-- R319 to R323, R165, R271, R324: CSRR gives the register that its number names, as of this tide, KSTAT as of the
next; CSRW of a writable register puts its
write in flight when the register's checks pass, and traps with 0x03 where no bit can be written; TRAP records its
own fault; RETH gives the core back its kernel's stream and TBASE, and either the next handler starts or the gang
resumes at the register's tide, D tc from now at the earliest; FMTW puts its word in flight. That FINFO of the 0x03 is 0
is the model's choice (log 9). -/
def Obligations.StatusWordsComplete : Prop :=
  ∀ (s : State) (i : BitVec 3) (d a : BitVec 5), s.cur.core < 256 → s.roomy →
    let k := s.me
    let v := s.reg a
    let reads (n : BitVec 15) (x : W64) : Prop := d.toNat < 24 →
      exec (.csrr i d n) s = .next (s.launch [s.flight 1 (.reg d.toNat x)])
    let writes (n : BitVec 15) : Prop :=
      exec (.csrw i a n) s = .next (s.launch [s.flight 1 (.csr n.toNat v)])
    (∀ n : BitVec 15, n.toNat / 16 ≠ 9 → reads n (k.csrRead s.tide n.toNat)) ∧
    reads 0 (w64 s.tide) ∧ reads 1 (w64 k.tbase) ∧ reads 2 (w64 k.slip) ∧ reads 3 k.hmode ∧ reads 8 k.fcause ∧
    reads 9 k.finfo ∧ reads 0x18 k.trapvec ∧ reads 0x19 k.tsave ∧ reads 0x1A k.parea ∧
    reads 0x20 (k.fflags.setWidth 64) ∧ reads 0x21 k.sr.seed ∧ reads 0x22 (k.sr.step.setWidth 64) ∧
    reads 0x23 (k.sr.tid.setWidth 64) ∧ reads 0x24 k.sr.pos ∧
    (∀ j : BitVec 3, reads (0x10 + j.setWidth 15) (vget 0 k.ffr j.toNat)) ∧
    (∀ j : BitVec 4, reads (0x40 + j.setWidth 15) (k.tile j.toNat).tshape ∧
      reads (0x80 + j.setWidth 15) (k.ring j.toNat).cfg ∧
      (d.toNat < 24 → exec (.csrr i d (0x90 + j.setWidth 15)) s =
        .next (s.launch [s.flight 1 (.kstat d.toNat j.toNat)]))) ∧
    (∀ j : BitVec 3, reads (0xA0 + j.setWidth 15) (k.chain j.toNat).chstat) ∧
    (∀ n ∈ [0x18, 0x20, 0x21, 0x22, 0x23, 0x24], writes n) ∧
    (¬(wbit v 31 = true ∧ wbits v 21 17 = 31) → writes 0x19) ∧
    (wbits v 24 16 ≤ 256 → (wbits v 9 0 + wbits v 24 16) * 4096 ≤ 2 ^ 22 → writes 0x1A) ∧
    ((k.vheapCheck v).1 = true → writes 0x1B) ∧
    (∀ j : BitVec 4, ((k.ringCheck j.toNat v).1 = true → writes (0x80 + j.setWidth 15)) ∧
      (((k.tile j.toNat).a = true → k.mode = .handler) →
        ((k.tile j.toNat).c = true ∧ (k.tile j.toNat).shape = tshapeWord v ∨ shapeOk (tshapeWord v) = true) →
        wbits v 46 40 < shapeRows (tshapeWord v) → writes (0x40 + j.setWidth 15))) ∧
    (∀ n : BitVec 15, csrMask n.toNat = 0 → exec (.csrw i a n) s = .next (s.trap 0x03 0)) ∧
    exec (.fmtw i a) s = .next (s.launch [s.flight 1 (.fmtPush v)]) ∧
    (∀ m : BitVec 15, k.mode ≠ .handler → s.faultFrozen s.cur.core = false → k.ownFault = false →
      ∃ u, exec (.trap i m) s = .next u ∧
      u.me.fcause = fcauseOf true true 7 0x1A ∧ u.me.finfo = m.setWidth 64 ∧ u.held = s.held) ∧
    (∀ t g st, s.inHandler = true → k.task = some t → s.taskOf s.cur.core = some g → g.stop = some st →
      let back (u : State) : Prop := exec (.reth i a) s = .next u ∧ u.me.mode = .frozen ∧
        u.me.stream = k.saved.getD {} ∧ u.me.tbase = k.kbase ∧ u.held = s.held
      (s.handlersLeft g st ≠ none → ∃ u, back u ∧ u.now = s.now ++ [.event (.handlerStart t) 0]) ∧
      (s.handlersLeft g st = none → ∃ u, back u ∧
        ⟨Nat.max v.toNat (s.tide + g.d), .gangResume t, 0⟩ ∈ u.agenda ∧
        ∀ c ∈ g.cores, c < 256 → wbit (u.core c).fcause 63 = false))

/-- R326 to R334, R402: ECMD adds a command with its sixteen words, its pages and the value that it holds; CHL links
an idle chain slot, CHK starts a linked one, CHK.stop asks one that runs to stop; TALIGN sets its gate class; CKPT
opens the epilogue, clears the checkpoint-due marks and writes the issue-time parts of its region; KVTL reads a
segment's image, and KVTU unlocks one. That CHK on a slot that runs clears a stop that was asked for is the model's
choice (log 66). -/
def Obligations.CommandWordsComplete : Prop :=
  ∀ (s : State) (i : BitVec 3) (a : BitVec 5) (j : BitVec 3) (n : BitVec 4) (l : BitVec 1), s.cur.core < 256 →
    s.roomy →
    let k := s.me
    let p := s.reg a
    let words (off len : Nat) : List W64 := words64 (len / 8) (k.scratch.read off len)
    let c := k.chain j.toNat
    let free := s.inEpilogue = false
    let saved (u : State) (ps : List (Piece × List Byte)) : Prop := exec (.ckpt i a) s = .next u ∧ u.held = s.held ∧
      u.me.epi.active = true ∧ (∀ r ∈ u.me.reqs.drop k.reqs.length, r.id ∈ u.me.epi.writes) ∧
      (u.me.reqs.drop k.reqs.length).map GReq.op = ps.map (fun x => .store x.2) ∧
      (u.me.reqs.drop k.reqs.length).map GReq.pieces = ps.map (fun x => [x.1]) ∧
      ∀ r, r < 16 → (u.me.ring r).ckd = false
    let parts (vs : List (W64 × W64)) : List (Nat × List Byte) :=
      (k.regionParts vs).flatMap (fun x => pageCuts (s.myTask.ckaddr + x.1) x.2)
    (∀ off v es, k.ownRegion p 128 = .ok off → (∀ x ∈ commandChecks false (words off 128), x.1 = true) →
      k.sourceValue (words off 128) = .ok v → k.outstanding + 1 ≤ 4096 →
      es.map Trans.hit = (commandBases (words off 128)).map (fun x => s.translate s.cur.core x.1 x.2) →
      ∃ u m, exec (.ecmd i a) s = .next u ∧ u.held = s.held ∧ u.me.cmds = k.cmds ++ [m] ∧ m.id = s.fresh ∧
        m.words = words off 128 ∧ m.slot = none ∧ m.state = .posted ∧ m.pages = es ∧ m.hold = v ∧
        s.tide < m.ready) ∧
    (∀ t e, free → deref k p .ownOrGlobal (fun x => x % 128 == 0) = .ok t → c.run = false →
      (∀ va, t = .global va → s.translate s.cur.core va .command = .hit e) →
      ∃ u, exec (.chl i a j) s = .next u ∧ u.held = s.held ∧ u.me.chain j.toNat = { lnk := true, next := p }) ∧
    (free → c.lnk = true →
      (c.run = false → ∃ u, exec (.chk i j) s = .next u ∧ u.held = s.held ∧ (u.me.chain j.toNat).run = true ∧
        (u.me.chain j.toNat).stop = none ∧ (u.me.chain j.toNat).next = c.next) ∧
      (c.run = true → ∃ u, exec (.chk i j) s = .next u ∧ u.held = s.held ∧
        u.me.chain j.toNat = { c with stop := none })) ∧
    (c.lnk = true → ∃ u, exec (.chkStop i j) s = .next u ∧ u.held = s.held ∧
      u.me.chain j.toNat = { c with stop := if c.run then some s.tide else none } ∧
      ∀ m ∈ u.me.cmds, m.slot = some j.toNat → ¬ (m.state = .posted ∧ m.rep = 0)) ∧
    (s.gatePlace → (∃ u, exec (.talign i a) s = .next u ∧ s.gates u (.talign p)) ∧
      (p ≠ 0 → ∃ u, exec (.talignM i a) s = .next u ∧ s.gates u (.talignM p))) ∧
    (s.myTask.np = false → s.myTask.ckaddr ≠ 0 → k.epi.active = false →
      (∀ ps, a = 0 → (∀ x ∈ s.regionChecks [], x.1 = true) → s.myTask.heldWrite (parts []) = .ok ps →
        ∃ u, saved u ps) ∧
      (∀ off ps, a ≠ 0 → k.ownRegion p 64 = .ok off →
        let len := 64 + 16 * Nat.min (wbits (w64 (natOfBytes (k.scratch.read off 8))) 5 0) 32
        k.ownRegion p len = .ok off → (∀ x ∈ carriedChecks (words off len), x.1 = true) →
        (∀ x ∈ s.regionChecks (carried (words off len)), x.1 = true) →
        s.myTask.heldWrite (parts (carried (words off len))) = .ok ps → ∃ u, saved u ps)) ∧
    (∀ off, k.ownRegion p 2112 = .ok off → wbits ((words64 8 (k.scratch.read off 2048)).getD 0 0) 63 40 = 0 →
      (∀ m, 1 ≤ m → m < 8 → (words64 8 (k.scratch.read off 2048)).getD m 0 = 0) →
      wbit (vget {} k.kvseg n.toNat).desc 62 = false → exec (.kvtl i a l n) s = .next (s.launch
        [s.flight 0 .use (banksOf off 2048), s.flight 1 (.kvBeat n.toNat (l == 1) (off + 2048)
          (k.scratch.read off 2048)) (banksOf (off + 2048) 64)])) ∧
    exec (.kvtu i n) s = .next (s.launch [s.flight 1 (.kvUnlock n.toNat)])

/-- R401, R403, R404: AQP posts one scan for each page of its query, in ascending order, and reserves their slots
at issue + 1; BWO sends the opening of a group, and OPTS its step, to the base die of its arrays, with their DPAs;
BWO marks its status register pending. -/
def Obligations.ServiceWordsComplete : Prop :=
  ∀ (s : State) (i : BitVec 3) (a d : BitVec 5) (b : BitVec 1), s.cur.core < 256 → s.roomy →
    let k := s.me
    let p := s.reg a
    let words (off len : Nat) : List W64 := words64 (len / 8) (k.scratch.read off len)
    let low (x : W64) : Prop := wbits x 63 57 = 0
    (∀ off ps, s.inEpilogue = false → k.ownRegion p 320 = .ok off →
      let ws := words off 320
      let pages := queryPages (b == 1) ws
      (∀ x ∈ queryChecks (b == 1) ws, x.1 = true) →
      (∀ x ∈ k.queryRingChecks (queryRing ws) pages.length, x.1 = true) →
      s.kvLookups (wbits (ws.getD 0 0) 15 0) (wbits (ws.getD 0 0) 23 16) pages = .ok ps →
      ∃ u, exec (.aqp i a b) s = .next u ∧ u.held = s.held ∧
        s.flight 1 (.ringReserve (queryRing ws) ps.length 0 (some s.fresh)) ∈ u.me.inflight ∧
        (u.scans.drop s.scans.length).map PageScan.page = ps.map Prod.fst ∧
        (u.scans.drop s.scans.length).map PageScan.ordinal = pages ∧
        (u.scans.drop s.scans.length).map PageScan.index = List.range pages.length) ∧
    (∀ off e f, d.toNat < 24 → k.outstanding + 1 ≤ 4096 → k.ownRegion p 64 = .ok off →
      let ws := words off 64
      let w1 := ws.getD 1 0
      let w2 := ws.getD 2 0
      (∀ x ∈ bwoChecks ws, x.1 = true) → low w1 → low w2 →
      s.translate s.cur.core w1.toNat .apply = .hit e → s.translate s.cur.core w2.toNat .store = .hit f →
      w1.toNat + (wbits (ws.getD 0 0) 15 8 + 1) * 8192 ≤ e.va + e.size →
      let die := e.dpa w1.toNat / 2 ^ 37
      ∃ u, exec (.bwo i a d) s = .next u ∧ u.held = s.held ∧
        u.msgs = s.msgs ++ [s.message (2 * die + wbits (ws.getD 0 0) 31 20 % 2)
          (.groupOpen ws (e.dpa w1.toNat) (f.target w2.toNat) die) d.toNat] ∧
        (d ≠ 0 → u.me.isPending (.reg d.toNat) = true)) ∧
    (∀ (off : Nat) (es : List TlbEntry) (f : TlbEntry), (s.preemptible = true → k.epi.active = true) →
      k.outstanding + 1 ≤ 4096 → k.ownRegion p 128 = .ok off →
      let ws := words off 128
      let w (m : Nat) : W64 := ws.getD m 0
      let dpas := (es.zip [1, 2, 3, 4]).map (fun x => x.1.dpa (w x.2).toNat)
      (∀ x ∈ optsChecks ws, x.1 = true) → (∀ m ∈ [1, 2, 3, 4, 10], low (w m)) →
      es.map Trans.hit = [1, 2, 3, 4].map (fun m => s.translate s.cur.core (w m).toNat .apply) →
      (∀ x ∈ es.zip [1, 2, 3, 4], (w x.2).toNat + 4 * (wbits (w 0) 18 0 + 1) ≤ x.1.va + x.1.size) →
      s.translate s.cur.core (w 10).toNat .store = .hit f → (∀ x ∈ dpas, x / 2 ^ 37 = dpas.headD 0 / 2 ^ 37) →
      let die := dpas.headD 0 / 2 ^ 37
      ∃ u, exec (.opts i a) s = .next u ∧ u.held = s.held ∧
        u.msgs = s.msgs ++ [s.message (2 * die + wbits (w 0) 63 52 % 2) (.opts ws dpas (f.target (w 10).toNat) die)])

/-! ### The package -/

/-- R23 to R25, R50: a package reset runs bring-up on the image in flash: one that is signed and whose version is new
enough, with a die present and an alignment, makes the package ready, with the tide at zero and the dies whose
self-tests and stacks passed; a failing alignment is fatal; with no die the package stays at phase 4 and reports it;
another image leads to recovery wait. There RCVGO starts the read of an image of 4 KiB to 64 MiB, which ends later; a
read that fails is code 7, one that ends is code 2, verified later: code 4, 5, or the image goes to flash, with
bring-up from phase 3 on. The model's choices: an image's version is its first word and its signature is a function of
it (log 7); phases 3 to 8 take one step and no time (log 48). -/
def Obligations.BringUpCompletes : Prop :=
  ∀ (s : State) (e : BootEnv) (v : W64) (r : RecoveryRead),
    let good (image : List Byte) : Prop := Config.signed image = true ∧ versionOk image = true
    (∃ t, exec (.packageReset e) s = .next t ∧ t.plimit = 2000 ∧ t.tasks = [] ∧ t.host = s.host ∧ t.flash = s.flash ∧
      (good s.flash → bootAlive e → e.tideOk = true → t.upWith e ∧ t.image = s.flash) ∧
      (good s.flash → bootAlive e → e.tideOk = false → t.boot = .fatal) ∧
      (good s.flash → e.diesOk = 0 → t.boot = .phase 4 ∧ t.replies = s.replies ++ [.management 4]) ∧
      (¬ good s.flash → t.boot = .recovery ∧ t.rcvwait = true)) ∧
    (s.boot = .recovery → v.getLsbD 0 = true → s.rcvcode ≠ 1 → s.rcvcode ≠ 2 →
      ((s.rcvlen.toNat < 2 ^ 12 ∨ 2 ^ 26 < s.rcvlen.toNat) → exec (.rcvgo v) s = .next { s with rcvcode := 6 }) ∧
      (2 ^ 12 ≤ s.rcvlen.toNat → s.rcvlen.toNat ≤ 2 ^ 26 → ∃ t n, exec (.rcvgo v) s = .next t ∧ t.rcvcode = 1 ∧
        t.boot = .recovery ∧ t.host = s.host ∧ t.flash = s.flash ∧
        ∃ d ∈ t.agenda, d.ev = .recoveryImageRead (Config.recoveryRead n) ∧ s.tide < d.at_)) ∧
    (s.boot = .recovery → s.rcvcode = 1 → ∃ t, exec (.recoveryImageRead r) s = .next t ∧
      (r.dmaOk = false → t = { s with rcvcode := 7 }) ∧
      (r.dmaOk = true → t.rcvcode = 2 ∧ t.boot = .recovery ∧
        t.rcvimage = s.host.read s.rcvaddr.toNat s.rcvlen.toNat ∧
        ∃ d ∈ t.agenda, d.ev = .recoveryImageRead r ∧ s.tide < d.at_)) ∧
    (s.boot = .recovery → s.rcvcode = 2 → ∃ t, exec (.recoveryImageRead r) s = .next t ∧
      (Config.signed s.rcvimage = false → t = { s with rcvcode := 4 }) ∧
      (Config.signed s.rcvimage = true → versionOk s.rcvimage = false → t = { s with rcvcode := 5 }) ∧
      (good s.rcvimage → bootAlive r.env → r.env.tideOk = true → t.upWith r.env ∧ t.rcvcode = 3 ∧
        t.rcvwait = false ∧ t.flash = s.rcvimage ∧ t.image = s.rcvimage))

/-- R18, R20, R22, R49: PLIMIT takes 600 to 2000 W and refuses other values; at the end of a window a package above
its limit holds admission, and one at or below it does not; from 95 °C on admission is held, from 105 °C on every
running gang ends, at 120 °C power goes, and below 90 °C the hold ends; dies whose tide disagrees are marked and their
running gangs end. -/
def Obligations.PowerAndCoolingComplete : Prop :=
  ∀ (s : State) (v : W64) (bad : BitVec 4) (n : Nat), s.boot = .ready →
    let w := wbits v 15 0
    let gangsEnd (t : State) (which : Task → Bool) : Prop := ∀ m k c, s.task? m = some k → k.state = .running →
      which k = true → k.cores.head? = some c → (s.core c).task = some m → t.ends m
    (600 ≤ w → w ≤ 2000 → exec (.plimitWrite v) s = .next
      { s with plimit := v.setWidth 16, phold := s.phold || decide (w < s.watts) }) ∧
    ((w < 600 ∨ 2000 < w) → ∃ t, exec (.plimitWrite v) s = .next t ∧ s.refuses t ∧ t.plimit = s.plimit) ∧
    exec (.powerWindow n) s = .next { s with watts := n, phold := decide (s.plimit.toNat < n) } ∧
    (120 ≤ n → exec (.thermalSample n) s = .next { s with powered := false }) ∧
    (105 ≤ n → n < 120 → ∃ t, exec (.thermalSample n) s = .next t ∧ t.thold = true ∧ t.ttrip = true ∧
      t.held = s.held ∧ gangsEnd t (fun _ => true)) ∧
    (95 ≤ n → n < 105 → ∃ t, exec (.thermalSample n) s = .next t ∧ t.thold = true ∧ t.ttrip = s.ttrip ∧
      t.held = s.held ∧ t.tasks = s.tasks) ∧
    (90 ≤ n → n < 95 → exec (.thermalSample n) s = .next s) ∧
    (n < 90 → exec (.thermalSample n) s = .next { s with thold := false }) ∧
    ∃ t, exec (.tideCompare bad) s = .next t ∧ t.misal = s.misal ||| bad ∧ t.held = s.held ∧
      gangsEnd t (fun k => k.cores.any (fun c => bad.getLsbD (dieOf c)))

/-- R28, R33, R34, R38, R44: an uncorrectable flit ends the running gangs whose timed traffic uses its edge, and the
sixteenth in a second takes the link down; a station that goes down ends the running gangs with accesses on it and
fails copies over it; a port that goes down leaves the spray; the end of a transfer lets its command move its data, or
ends its copy, or fails either, once no transfer that was posted before it in ordered mode is under way; a
timed flit leaves a die-edge link 40 tc after it entered it, and waits where two have entered in this tide. The model's
choices: the cause 0x0E of a copy on a station that goes down (log 40), and of one whose transfer fails (log 60). -/
def Obligations.LinkStepsComplete : Prop :=
  ∀ (s : State) (n : Nat) (b : Bool), s.boot = .ready →
    let ts := (vget [] s.edgeErrors n).filter (fun x => s.tide < x + 600000000) ++ [s.tide]
    let arrives (i : Instr) : Prop := exec .timedFlitArrival s = .next { s with now := .event i s.subject :: s.now }
    (n < 4 → ∃ t, exec (.uncorrectableFlit n b) s = .next t ∧ t.held = s.held ∧ vget [] t.edgeErrors n = ts ∧
      vget false t.edgeDown n = (vget false s.edgeDown n || decide (16 ≤ ts.length)) ∧
      (b = false → t.tasks = s.tasks) ∧
      (b = true → ∀ m k c, s.task? m = some k → k.state = .running → s.usesEdge m k n = true →
        k.cores.head? = some c → (s.core c).task = some m → t.ends m)) ∧
    (s.stationUp.getLsbD n = false → exec (.stationDown n) s = .next s) ∧
    (s.stationUp.getLsbD n = true → ∃ t, exec (.stationDown n) s = .next t ∧
      t.stationUp = s.stationUp &&& ~~~((1 : BitVec 16) <<< n) ∧
      (∀ j ∈ s.copies, s.copyOn n j = true → ∃ y ∈ t.copies, y.id = j.id ∧ y.failed = some (0x0E, none)) ∧
      (∀ c m k, s.onStation n c = true → (s.core c).task = some m → s.task? m = some k → k.state = .running →
        t.ends m) ∧
      ((∀ c, s.commandsOn n c = []) → t.held = s.held)) ∧
    exec (.ethernetPortDown n) s = .next { s with portUp := s.portUp &&& ~~~((1 : BitVec 8) <<< n) } ∧
    (s.transferWaits n = true → exec (.ethernetTransferComplete n b) s =
      .next { s with etherDone := s.etherDone.filter (fun x => x.1 != n) ++ [(n, b)] }) ∧
    (∀ c m, s.transferWaits n = false → s.transferCommand n = some (c, m) → m.isMoving = true →
      s.overEthernet c m = true → ∃ t, exec (.ethernetTransferComplete n b) s = .next t ∧
        (b = true → t.held = s.held ∧ (t.core c).command n = some { m with
          state := .moving m.began (some s.tide), moves := { m.moves with since := s.tide } }) ∧
        (b = false → s.recordBusy c m = false → ∀ y ∈ (t.core c).cmds, y.id ≠ n) ∧
        (b = false → s.recordBusy c m = true → ∃ y, (t.core c).command n = some y ∧
          y.state = .moved m.began (some (0x0E, transInfo 7 3 0)))) ∧
    (∀ j, s.transferWaits n = false → s.transferCommand n = none →
      s.copies.find? (fun x => x.id == n) = some j → j.ether = true →
        ∃ t, exec (.ethernetTransferComplete n b) s = .next t ∧ t.now = .event (.copyNodeComplete n) 0 :: s.now ∧
        t.held = s.held ∧ (b = true → t.copies = s.copies) ∧
        (b = false → ∀ y ∈ t.copies, y.id = n → y.failed = some (0x0E, none))) ∧
    (∀ f, s.flits.find? (fun x => x.id == s.subject) = some f →
      (∀ link after rest, f.legs = (link, after) :: rest → s.linkUse link s.tide < 2 →
        ∃ t, exec .timedFlitArrival s = .next t ∧ t.held = s.held ∧
          t.linkUse link s.tide = s.linkUse link s.tide + 1 ∧ t.flits = s.flits.map (fun x =>
            if x.id = f.id then { x with due := s.tide + 40 + after, legs := rest } else x)) ∧
      (∀ leg rest, f.legs = leg :: rest → 2 ≤ s.linkUse leg.1 s.tide → exec .timedFlitArrival s = .next s) ∧
      (f.legs = [] →
        (∀ c m p x, f.kind = .signal c m p x → arrives .flagSignalArrival) ∧
        (∀ a c, f.kind = .barrier a c → arrives .barrierArrival) ∧
        (∀ m a c j len im, f.kind = .tile m a c j len im → ∃ t, exec .timedFlitArrival s = .next t ∧
          t.held = s.held ∧ t.flits = s.flits.filter (fun x => x.id != f.id) ∧
          (j = 0 → ∃ y, t.inbound = s.inbound ++ [y] ∧ y.send = m ∧ y.src = a ∧ y.dst = c ∧ y.image = im ∧
            y.left = len - 1 ∧ y.slot = none) ∧
          (j ≠ 0 → t.inbound.map (fun y => (y.send, y.left)) = s.inbound.map (fun y =>
            (y.send, if y.send = m then y.left - 1 else y.left))))))

/-- R39 to R43: a read of the inbox window gives zeros, an atomic and a write of another size or alignment an error;
an inbox write passes the records that its checks accept on in order, and counts the others; a station sends 64 bytes,
or 256 with sixteen records waiting, padded with null records, once what was issued before them has left (R36);
a binding entry takes 0 and 0x80 to 0x9F; an access of
another package is served where its binding and a range that takes it allow, and is refused elsewhere. -/
def Obligations.InboxStepsComplete : Prop :=
  ∀ (s : State) (a : BitVec 48) (n : Nat) (data : List Byte) (v : Byte) (r : RemoteAccess), s.boot = .ready →
    let reports (x : Reply) : Host.Outcome State Fault Refusal := .next { s with replies := s.replies ++ [x] }
    let len := data.length
    let xs := (chunksOf 16 (len / 16) data).map (fun y =>
      s.incoming ((words64 2 y).getD 0 0) ((words64 2 y).getD 1 0))
    let size := remoteSize r.op
    let home := (s.boundTo r.src.toNat r.spart.toNat).bind (fun p => s.remoteAt p r.addr size)
    exec (.inboxRead a n) s = reports (.ualinkData (List.replicate n 0)) ∧
    exec (.inboxAtomic a) s = reports .ualinkError ∧
    ((len ≠ 64 ∧ len ≠ 256 ∨ a.toNat % len ≠ 0) → exec (.inboxWrite a data) s = reports .ualinkError) ∧
    ((len = 64 ∨ len = 256) → a.toNat % len = 0 → (∀ m ∈ s.msgs, m.remote ≠ some s.fresh) →
      (∀ x ∈ s.inbox, x.1 ≠ s.fresh) → ∃ t, exec (.inboxWrite a data) s = .next t ∧ t.held = s.held ∧
        (t.msgs.drop s.msgs.length).map (fun m => (m.part, m.kind)) = xs.filterMap (fun x => match x with
          | .accept p dpa op w => some (p, .red op dpa w)
          | _ => none) ∧
        t.iberr.toNat = Nat.min (2 ^ 32 - 1) (s.iberr.toNat + xs.count .discard) ∧
        ((∀ x ∈ xs, x = .null ∨ x = .discard) →
          t.replies = s.replies ++ [if .discard ∈ xs then .ualinkError else .ualinkOk]) ∧
        ((∃ x ∈ xs, x ≠ .null ∧ x ≠ .discard) → t.replies = s.replies)) ∧
    (∀ c pod g st, s.gathers.find? (fun x => x.core == c && x.home == pod) = some g →
      s.station (dieOf c) pod = some st →
      let m := if 16 ≤ g.records.length then 16 else 4
      let sent := g.records.take (Nat.min m (s.firstRecords st g))
      (s.firstRecords st g = 0 → exec (.inboxWriteSend c pod) s =
          .next (s.due (s.tide + 1) (.inboxWriteSend c pod) 0)) ∧
      (s.firstRecords st g ≠ 0 → ∃ t, exec (.inboxWriteSend c pod) s = .next t ∧ t.held = s.held ∧
        t.outgoing = s.outgoing ++ [.inboxWrite c pod st
          ((sent ++ List.replicate (m - sent.length) nullRecord).flatten)] ∧
        (t.acks.drop s.acks.length).map Ack.msg = g.ids.take sent.length)) ∧
    ((v = 0 ∨ 128 ≤ v.toNat ∧ v.toNat < 160) → ∃ t, exec (.inboxBindingWrite n v) s = .next t ∧ t.held = s.held ∧
      ∀ m, Sparse.get 0 t.bindings m = if m = n then v else Sparse.get 0 s.bindings m) ∧
    (¬ (v = 0 ∨ 128 ≤ v.toNat ∧ v.toNat < 160) → ∃ t, exec (.inboxBindingWrite n v) s = .next t ∧ s.refuses t ∧
      t.bindings = s.bindings) ∧
    (home = none → exec (.remoteAccess r) s = reports .ualinkError) ∧
    (∀ dpa, home = some dpa →
      let old := s.device.read dpa size
      let puts (x : Reply) (bs : List Byte) : Prop := ∃ t, exec (.remoteAccess r) s = .next t ∧
        t.replies = s.replies ++ [x] ∧ t.device.read dpa bs.length = bs ∧ t.cores = s.cores ∧
        ∀ y, (y < dpa ∨ dpa + bs.length ≤ y) → t.device.get y = s.device.get y
      (∀ bs, r.op = .write bs → puts .ualinkOk bs) ∧
      (∀ m, r.op = .read m → s.badAt dpa m = none → exec (.remoteAccess r) s = reports (.ualinkData old)) ∧
      (∀ m, r.op = .read m → s.badAt dpa m ≠ none → ∃ t, exec (.remoteAccess r) s = .next t ∧
        t.replies = s.replies ++ [.ualinkError] ∧ t.held = s.held) ∧
      (∀ y, rmwOf r.op = some y → s.badAt dpa size = none →
        ((y.apply old).new = none → exec (.remoteAccess r) s = reports (.ualinkData old)) ∧
        ∀ bs, (y.apply old).new = some bs → puts (.ualinkData old) bs))

/-! ### Partitions and functions -/

/-- R61 to R63, R74, R216, R253: a write of PCOH, PRNG, PVF or PCTL takes effect in a Stopped partition, or where it
changes WDOG alone, and gives no other partition's cohort, range or function away; it is refused elsewhere. PCMD 1
starts a partition that has cohorts and ranges; PCMD 2 and firmware begin its reset, which ends its tasks and groups
and disables its queues; once drained its cores and cohort memories are cleared and it is Stopped, device memory stays.
KVSPLIT takes its field while every partition is Stopped. The model's choices: PCMD 1 in Running clears the list of retired
cores, and the end of a reset clears the rings (log 34). -/
def Obligations.PartitionStepsComplete : Prop :=
  ∀ (s : State) (p : Nat) (v : W64), s.boot = .ready → p < 32 →
    let k := s.part p
    let writes (off : Nat) (new : Partition) : Prop :=
      let may := (k.state = .stopped ∨ k.sameBut new = true) ∧
        ∀ q, q < 32 → q ≠ p → (s.part q).clashes new = false
      (may → exec (.partitionConfigWrite p off v) s = .next (s.setPart p new)) ∧
      (¬ may → ∃ t, exec (.partitionConfigWrite p off v) s = .next t ∧ s.refuses t)
    let resetting (i : Instr) : Prop := ∃ t, exec i s = .next t ∧ (t.part p).state = .resetting ∧
      (∀ g ∈ t.groups, g.part = p → g.written = true) ∧ (∀ f ∈ k.functions, ∀ q, q < 512 → (t.wq f q).en = false) ∧
      ∀ n x, s.task? n = some x → x.part = p → s.aborts t n
    writes 0 { k with pcoh := v.setWidth 32 } ∧
    (∀ n, n < 16 → writes (8 + 8 * n) { k with rng := vset k.rng n (setBits v 27 2 0) }) ∧
    (∀ n b, n < 4 → (∀ j, b.getLsbD j = if 64 * n ≤ j ∧ j < 64 * n + 64 then v.getLsbD (j - 64 * n)
      else k.pvf.getLsbD j) → writes (0x88 + 8 * n) { k with pvf := b }) ∧
    writes 0xA8 { k with wdog := v.extractLsb' 32 32, wq := v.getLsbD 4, hm := v.setWidth 4 } ∧
    (k.state = .stopped → k.pcoh ≠ 0 → k.ranges ≠ [] → ∃ t, exec (.pcmdStart p) s = .next t ∧
      t.part p = { k with state := .running, retired := [] } ∧ (∀ q, q ≠ p → t.part q = s.part q) ∧
      ∀ n g, g < 4096 → Sparse.get 0xFF t.lastStatus (lastKey n p g) = 0xFF) ∧
    (k.state = .stopped → (k.pcoh = 0 ∨ k.ranges = []) → exec (.pcmdStart p) s = .next s) ∧
    (k.state = .running → exec (.pcmdStart p) s = .next (s.setPart p { k with retired := [] })) ∧
    (∀ i ∈ [Instr.pcmdReset p, .firmwarePartitionReset p],
      (k.state = .running → resetting i) ∧ (k.state = .resetting → exec i s = .next s) ∧
      (k.state = .stopped → ∃ t, exec i s = .next t ∧
        t.now.head? = some (.event (.partitionResetComplete p) 0))) ∧
    (s.partitionDrained p = true → ∃ t, exec (.partitionResetComplete p) s = .next t ∧
      (t.part p).state = .stopped ∧ t.device = s.device ∧ t.host = s.host ∧
      (∀ c ∈ k.cores, (t.core c).scratch = [] ∧ (∀ n, (t.core c).tile n = {}) ∧ (t.core c).acc = [] ∧
        (t.core c).blocks = [] ∧ ∀ n, (t.core c).ring n = {}) ∧ (∀ c, c ∉ k.cores → t.core c = s.core c) ∧
      ∀ a, t.cohort.get a = if k.pcoh.getLsbD (a / 2 ^ 23) then 0 else s.cohort.get a) ∧
    (s.partitionDrained p = false → k.state = .resetting → resetting (.partitionResetComplete p)) ∧
    ((∀ q, q < 32 → (s.part q).state = .stopped) →
      exec (.kvsplitWrite v) s = .next (s.setSplit (v.setWidth 7)) ∧ (s.setSplit (v.setWidth 7)).kvp = v.setWidth 7) ∧
    ((∃ q, q < 32 ∧ (s.part q).state ≠ .stopped) → ∃ t, exec (.kvsplitWrite v) s = .next t ∧ s.refuses t ∧
      t.kvp = s.kvp)

/-- R64, R74, R75: a reset of a virtual function puts its queues at their reset values and ends the tasks taken from
them, and, once nothing of it is under way, its event, overflow, invalidation and mailbox registers; a reset of PF0
concerns its own registers alone. A retired core with ROUTE set is told to the functions of its partition, and the host's
remap command brings an offline bank back with its failing rows remapped. The model's choices: with ROUTE clear no event is
raised (log 46), a command that names fewer rows than fail remaps the first of them (log 48), and the nonce survives a
function-level reset (log 7). -/
def Obligations.FunctionResetsComplete : Prop :=
  ∀ (s : State) (f c p : Nat), s.boot = .ready →
    (1 ≤ f → f ≤ 256 → (s.func f).flr = false → ∃ t, exec (.flrVf f) s = .next t ∧ (t.func f).flr = true ∧
      (t.func f).mbjob = none ∧ (t.func f).mbbusy = false ∧ (∀ q, q < 512 → t.wq f q = {}) ∧
      ∀ n x, s.task? n = some x → x.vf = f → s.aborts t n) ∧
    (s.flrOver f = true → exec (.flrVfComplete f) s = .next (s.setFunc f { nonce := (s.func f).nonce })) ∧
    exec .flrPf0 s = .next (s.setFunc 0 { nonce := (s.func 0).nonce }) ∧
    (s.route = false → exec (.coreRetirement c) s = .next s) ∧
    (s.route = true → p < 32 → (s.part p).pcoh.getLsbD (cohortOf c) = true →
      (∀ q, q < p → (s.part q).pcoh.getLsbD (cohortOf c) = false) →
      ∀ g, (s.part p).functions = [g] → (s.func g).eventRoom = true →
      let e := s.func g
      ∃ t x y, exec (.coreRetirement c) s = .next t ∧ (t.part p).retired = (s.part p).retired ++ [c] ∧
        t.held = s.held ∧ (t.func g).eqtail = e.eqtail + 1 ∧
        t.host.read (e.eqbase.toNat + 32 * (e.eqtail.toNat % 2 ^ e.eqlog)) 32 =
          eventRecord 0x02 ((s.virtual p c).getD 0) e.seq x y) ∧
    (∀ rows : List Nat, (s.bank p).offline = true → (∀ r ∈ rows, 2032 ≤ r ∧ r < 2047) →
      (∀ d ∈ s.agenda, ∀ x y, d.ev ≠ .bankRemapComplete p x y) →
      let fails := (s.failingRows p).take rows.length
      (s.bank p).spares + fails.length ≤ 15 → ∃ t, exec (.bankRemapCommand p rows) s = .next t ∧
        (t.bank p).offline = false ∧ (t.bank p).spares = (s.bank p).spares + fails.length ∧
        t.cores = s.cores ∧ t.cohort = s.cohort ∧ t.host = s.host ∧
        ∀ r ∈ fails, r ≠ 2047 → ∀ l ∈ s.rowLines p r, l ∉ t.poison)

/-- R66 to R69, R7, R48 to R51: a change of a slot's owner erases its key; the four mailbox commands end with their
result and, where it is 0, with their effect: the report over the nonce with its signature, the key unwrapped into an
owned slot, the slot empty, the certificate chain. A write of one of the registers listed here, which have no step of their
own, puts its field. The model's choices (log 7): the order of the checks of LOADKEY, and that a function bound to no
partition has every command refused before its code is looked at. -/
def Obligations.MailboxStepsComplete : Prop :=
  ∀ (s : State) (f n : Nat) (v : Byte) (w : W64) (j : MailJob), s.boot = .ready → f ≤ 256 →
    let x := s.func f
    let ps := j.params
    let slot := natOfBytes (ps.read 0 2)
    let owned := slot ≠ 0 ∧ slot < 2048 ∧ (Sparse.get 0 s.owners slot).toNat = 128 + j.part
    let done (i : Instr) (r : Byte) (also : State → Prop) : Prop := ∃ t, exec i s = .next t ∧ t.held = s.held ∧
      (t.func f).mbbusy = false ∧ (t.func f).mbresult = r ∧ (t.func f).mbjob = none ∧ also t
    let same (t : State) : Prop := t.keys = s.keys
    let chain := Config.certificateChain.take 2040
    let body := s.reportBody j.part (ps.read 0 48)
    let curve := Config.onCurve (ps.read 0x40 96)
    let puts (off : Nat) (t : State) : Prop := exec (.registerWrite 0 off w) s = .next t
    let mail (off : Nat) (r : W64) (g : Func → Func) : Prop :=
      exec (.registerWrite f off r) s = .next (s.modFunc f g)
    (∃ t, exec (.keyOwnerWrite n v) s = .next t ∧ t.held = s.held ∧
      (∀ m, Sparse.get 0 t.owners m = if m = n then v else Sparse.get 0 s.owners m) ∧
      ∀ m, Sparse.find t.keys m = if m = n ∧ v ≠ Sparse.get 0 s.owners n then none else Sparse.find s.keys m) ∧
    (x.mbjob = some j →
      (j.code = 1 → done (.attest f) 0 (fun t => (t.func f).nonce = some (ps.read 0 48) ∧
        (t.func f).mbout.read 0 (body.length + 96) = body ++ fitBytes 96 (Config.signature (Config.sha384 body)))) ∧
      (j.code = 4 → done (.getcert f) 0 (fun t => natOfBytes ((t.func f).mbout.read 0 4) = chain.length ∧
        (t.func f).mbout.read 8 chain.length = chain)) ∧
      (j.code = 3 → (slot = 0 → done (.clearkey f) 2 same) ∧
        (slot ≠ 0 → ¬ owned → done (.clearkey f) 1 same) ∧
        (owned → done (.clearkey f) 0 (fun t => Sparse.find t.keys slot = none))) ∧
      (j.code = 2 → (slot = 0 → done (.loadkey f) 2 same) ∧ (slot ≠ 0 → ¬ owned → done (.loadkey f) 1 same) ∧
        (owned → (curve = false → done (.loadkey f) 4 same) ∧
          (curve = true → x.nonce = none → done (.loadkey f) 5 same) ∧
          ∀ m, curve = true → x.nonce = some m →
            let key := Config.unwrapKey ((Config.sha384 (Config.sharedPoint s.resets (ps.read 0x40 96) ++ m)).take 32)
              (ps.read 0xA0 72)
            (key = none → done (.loadkey f) 3 same) ∧
            ∀ ks, key = some ks → done (.loadkey f) 0 (fun t => Sparse.find t.keys slot = some ks)))) ∧
    puts 0x18 { s with bremap := w.getLsbD 5, route := w.getLsbD 4 } ∧
    puts 0x20 { s with iberr := w.setWidth 32 } ∧ puts 0x28 { s with ibsnd := w.setWidth 32 } ∧
    puts 0x1000 { s with rcvaddr := w >>> 12 <<< 12 } ∧ puts 0x1008 { s with rcvlen := w.setWidth 32 } ∧
    puts 0x9000 (s.modFunc 0 (fun y => { y with eqbase := w >>> 12 <<< 12 })) ∧
    (∀ p, p < 32 → puts (0x20B8 + 256 * p) (s.modPart p (fun y => { y with perr := w.setWidth 32 }))) ∧
    (n % 8 ≠ 0 → exec (.registerWrite f n w) s = .next s) ∧
    (1 ≤ f → mail 0x200 w (fun y => { y with ovbase := w >>> 6 <<< 6 }) ∧
      mail 0x308 w (fun y => { y with xicnt := w.setWidth 32 }) ∧
      (x.mbbusy = true → exec (.registerWrite f 0x400 w) s = .next s) ∧
      (x.mbbusy = false → s.partOfVf f = none → mail 0x400 w (fun y => { y with mbresult := 7 })) ∧
      (x.mbbusy = false → s.partOfVf f ≠ none → ¬ (1 ≤ wbits w 7 0 ∧ wbits w 7 0 ≤ 4) →
        mail 0x400 w (fun y => { y with mbresult := 6 })) ∧
      (∀ p i, x.mbbusy = false → s.partOfVf f = some p → (i, w) ∈ [(Instr.attest f, 1), (.loadkey f, 2),
          (.clearkey f, 3), (.getcert f, 4)] → ∃ t, exec (.registerWrite f 0x400 w) s = .next t ∧
        (t.func f).mbbusy = true ∧ (t.func f).mbjob = some ⟨w.toNat, p, x.mbin⟩ ∧
        ∃ d ∈ t.agenda, d.ev = i ∧ s.tide < d.at_))

/-- R51, R54, R55, R61, R72, R73, R175: the queue registers, with their refusals, which set ERR and tell the function; a
queue that is disabled ends its parked tasks; EQSIZE, EVACK, invalidations, and accesses through BAR2. -/
def Obligations.QueueRegistersComplete : Prop :=
  ∀ (s : State) (f q : Nat) (v : W64) (data : List Byte), s.boot = .ready → f ≤ 256 →
    let x := s.wq f q
    let y := s.func f
    let tail : W32 := v.setWidth 32
    let en := v.getLsbD 31
    let log := wbits v 27 24
    let cfg : WorkQueue := { x with
      en := en, loc := v.getLsbD 30, irq := v.getLsbD 29, err := x.err && !v.getLsbD 28, log2n := log
      vec := wbits v 5 0, head := if en && !x.en then x.tail else x.head }
    let cfgOk := (x.en = true → cfg.loc = x.loc ∧ log = x.log2n) ∧ (x.en = false → en = true → 4 ≤ log)
    let told (t : State) : Prop := y.eventRoom = true → (t.func f).eqtail = y.eqtail + 1
    let refused (i : Instr) : Prop := ∃ t, exec i s = .next t ∧ t.held = s.held ∧ told t ∧
      ∀ g r, r < 512 → q < 512 → t.wq g r = if g = f ∧ r = q then { x with err := true } else s.wq g r
    (cfgOk → ∃ t, exec (.qcfgWrite f q v) s = .next t ∧ t.held = s.held ∧ t.wq f q = cfg ∧
      (x.en = true → en = false → ∀ n k, s.task? n = some k → k.awaitsRestart = true → k.node = none → k.vf = f →
        k.queue = q → ∃ m, t.task? n = some m ∧ m.state = .ending ∧ m.verdict = some ⟨0x04, 0, 0⟩)) ∧
    (¬ cfgOk → refused (.qcfgWrite f q v)) ∧
    ((tail - x.tail).toNat < 2 ^ 31 → (tail - x.head).toNat ≤ 2 ^ x.log2n →
      exec (.qtailWrite f q v) s = .next (s.setWq f q { x with tail := tail })) ∧
    ((2 ^ 31 ≤ (tail - x.tail).toNat ∨ 2 ^ x.log2n < (tail - x.head).toNat) → refused (.qtailWrite f q v)) ∧
    (x.en = false → exec (.qbaseWrite f q v) s = .next (s.setWq f q { x with base := v >>> 6 <<< 6 })) ∧
    (x.en = true → refused (.qbaseWrite f q v)) ∧
    (wbits v 20 0 ≤ 2 ^ 20 → exec (.ovsizeWrite f v) s = .next (s.setFunc f { y with ovsize := wbits v 20 0 })) ∧
    (2 ^ 20 < wbits v 20 0 → ∃ t, exec (.ovsizeWrite f v) s = .next t ∧ t.held = s.held ∧ told t ∧
      (t.func f).ovsize = y.ovsize) ∧
    (en = true → (wbits v 3 0 < 4 ∨ 12 < wbits v 3 0) → exec (.eqsizeWrite f v) s = .next s) ∧
    ((en = true → 4 ≤ wbits v 3 0 ∧ wbits v 3 0 ≤ 12) → exec (.eqsizeWrite f v) s = .next (s.setFunc f { y with
      eqen := en, eqlog := wbits v 3 0, eqtail := if en then y.eqhead else y.eqtail })) ∧
    (∀ c e a m k, (s.core c).walk = some (e, a, m, some (wbits v 31 0)) → s.taskOf c = some k → k.vf = f →
      ∃ t, exec (.evack f v) s = .next t ∧ t.held = s.held ∧
        ∃ d ∈ t.agenda, d.ev = .translationWalkDone c) ∧
    ((y.xbusy = true ∨ v.getLsbD 0 = false) → exec (.xigo f v) s = .next s) ∧
    (y.xbusy = false → v.getLsbD 0 = true → exec (.xigo f v) s = .next (s.setFunc f { y with
      xbusy := true, xmark := true, xtasks := [], xfirst := y.xiva.toNat, xpages := y.xicnt.toNat })) ∧
    (∀ p, y.xmark = true → s.partOfVf f = some p → let t := s.markRange f
      (t.func f).xmark = false ∧ t.held = s.held ∧ ∀ c ∈ (s.part p).cores, (t.core c).tlb =
        (s.core c).tlb.map (fun e => if y.inRange e then { e with dying := true } else e)) ∧
    (s.invalidationOver f = true → ∃ t, exec (.invalidationDone f) s = .next t ∧ (t.func f).xbusy = false ∧
      (t.func f).xdone = y.xdone + 1 ∧ t.held = s.held ∧ ∀ c ∈ s.invalidated f, (t.core c).tlb =
        (s.core c).tlb.filter (fun e => !(e.dying && y.inRange e))) ∧
    (s.partOfVf f = none → exec (.bar2Access f q true data) s = .next s ∧ exec (.bar2Access f q false data) s =
      .next { s with replies := s.replies ++ [.bar2Read f (List.replicate data.length 0)] }) ∧
    (∀ p, s.partOfVf f = some p → data ≠ [] →
      (∀ dpa left ra, packedAt (s.part p).ranges q = some (dpa, left, ra) → data.length ≤ left →
        (∀ m, m < data.length → s.served (dpa + m) = true) →
        (∃ t, exec (.bar2Access f q true data) s = .next t ∧ t.device.read dpa data.length = data ∧
          t.cores = s.cores ∧ t.parts = s.parts ∧
          ∀ a, (a < dpa ∨ dpa + data.length ≤ a) → t.device.get a = s.device.get a) ∧
        ((∀ l ∈ linesOf dpa data.length, s.badLine l = false) → exec (.bar2Access f q false data) s =
          .next { s with replies := s.replies ++ [.bar2Read f (s.device.read dpa data.length)] })) ∧
      ((∀ a, q ≤ a → packedAt (s.part p).ranges a = none) →
        exec (.bar2Access f q true data) s = .next (s.countError p)))

/-! ### Tasks and graphs -/

/-- R54, R56, R57, R60, R96, R383, R427: the take of a record moves QHEAD on; a record that a check refuses ends with
that detail, one that passes enters its owner die's ready set, and one of a graph becomes a graph. The end of a task
writes its record, tells the host, and removes it; a spilled record moves to the tail of its queue; a status lands in
its register, that of a spawn with the spawn. -/
def Obligations.TaskStepsComplete : Prop :=
  ∀ (s : State) (f q p n c : Nat), s.partOfVf f = some p →
    let x := s.wq f q
    let home := (s.homeDie p).getD 0
    let h := s.headTask p f q
    let took (P : State → Prop) : Prop := ∃ t, exec (.taskTake f q) s = .next t ∧
      (t.wq f q).head = x.head + 1 ∧ (t.wq f q).tail = x.tail ∧ P t
    (x.loc = false → h.1.record = words64 8 (s.host.read (x.base.toNat + 64 * (x.head.toNat % 2 ^ x.log2n)) 64)) ∧
    (∀ d, firstDetail (h.2.recordChecks p h.1.record) = some d →
      h.2.takeBusy home (h.2.wq f q) h.1 (.refused d) = false → took (fun t => ∃ m k, t.task? m = some k ∧
      k.record = h.1.record ∧ k.vf = f ∧ k.state = .ending ∧ k.verdict = some ⟨0x03, 0, BitVec.ofNat 32 d⟩)) ∧
    (∀ k u, h.2.examine home h.1 = (.kernel k, u) → u.takenRoom home h.1 (.kernel k) = true →
      u.takeBusy home (u.wq f q) h.1 (.kernel k) = false → took (fun t => ∃ m y, t.task? m = some y ∧
          y.record = h.1.record ∧ y.vf = f ∧ y.queue = q ∧ y.part = p ∧
        y.state = .ready ∧ y.readyTide = s.tide ∧ y.owner = s.ownerOf p home (y.word 3))) ∧
    (∀ hd nodes fault u, h.2.examine home h.1 = (.graph hd nodes fault, u) →
      u.takenRoom home h.1 (.graph hd nodes fault) = true →
      u.takeBusy home (u.wq f q) h.1 (.graph hd nodes fault) = false → took (fun t => ∃ g y, t.graph? g = some y ∧
        y.nodes = nodes ∧ y.records = graphRecords hd ∧ y.at_ = graphEntry hd ∧ y.fail.isSome = fault.isSome ∧
        y.state = if fault.isSome then .draining else .running)) ∧
    (∀ k, s.task? n = some k → (k.recorded = true → s.completionBusy k.part k.owner (k.word 2) = false) →
      ∃ t, exec (.taskComplete n) s = .next t ∧
      (∀ m, t.task? m = if m = n then none else s.task? m) ∧ (∀ d, d < 4 → (t.sched d).reservation ≠ some n) ∧
      t.cores = s.cores ∧
      (k.node = none → wbit (k.word 2) 0 = false → (s.func k.vf).flr = false → k.start ≠ 0 → ∀ e, k.endTide = some e →
        let v := k.outcome
        t.host.read ((k.word 2).toNat / 32 * 32) 32 = recordBytes v.status.toNat v.cause.toNat k.ncorr
            v.detail.toNat (k.word 4) k.start e ∧
          t.msix = if (s.wq k.vf k.queue).irq then s.msix ++ [(k.vf, (s.wq k.vf k.queue).vec)] else s.msix)) ∧
    (∀ off a, f ≤ 256 → (s.func f).firstSpill q = some off → x.en = true → x.hasRoom = true → x.loc = false →
      (s.func f).flr = false → s.dpaOf p off = some a → s.badAt a 64 = none →
      ∃ t, exec (.spillMove f q) s = .next t ∧ (t.wq f q).tail = x.tail + 1 ∧
        t.host.read (x.place x.tail) 64 = bytesOfWords ((words64 8 (s.device.read a 64)).set 7 0) ∧
        (t.func f).spills = (s.func f).spills.erase (q, off) ∧ t.held = s.held) ∧
    (∀ a, (s.core c).req n = none → s.acks.find? (fun y => y.id == n) = some a → a.core < 256 → a.reg < 32 →
      (s.core a.core).task = some a.task → ∃ t, exec (.statusReplyLanding c n) s = .next t ∧
        (a.reg ≠ 0 → (t.core a.core).reg a.reg =
          if s.discards a.core then (s.core a.core).reg a.reg else a.status.getD 0) ∧
        (t.core a.core).isPending (.reg a.reg) = false ∧ (∀ y ∈ t.acks, y.id ≠ n) ∧
        (∀ r, r < 32 → r ≠ a.reg → (t.core a.core).reg r = (s.core a.core).reg r) ∧
        t.cohort = s.cohort ∧ t.device = s.device) ∧
    (∀ r d b ws k, c < 256 → (s.core c).req n = some r → r.op = .spawn d b ws → 0 < d → d < 32 →
      s.taskOf c = some k → k.vf = f → k.part = p → s.discards c = false →
      let room := x.en = true ∧ x.hasRoom = true ∧ (∀ e ∈ (s.func f).spills, e.1 ≠ q)
      (511 < b.toNat → ∃ t, exec (.statusReplyLanding c n) s = .next t ∧ (t.core c).reg d = 0x03 ∧
        t.queues = s.queues) ∧
      (b.toNat ≤ 511 → b.toNat = q → x.en = false → ∃ t, exec (.statusReplyLanding c n) s = .next t ∧
        (t.core c).reg d = 0x06 ∧ t.queues = s.queues) ∧
      (b.toNat ≤ 511 → b.toNat = q → room → x.loc = false → (s.func f).flr = false →
        ∃ t, exec (.statusReplyLanding c n) s = .next t ∧ (t.core c).reg d = 0 ∧ (t.wq f q).tail = x.tail + 1 ∧
          t.host.read (x.place x.tail) (bytesOfWords ws).length = bytesOfWords ws))

/-- R85 to R94: a kernel node becomes a task, a copy node starts a copy (overlapping ranges fail it with 0x16), a signal
node stores or adds, a wait node completes or reads again within 256 tc until its timeout, a conditional node takes
NEXT or ALT, a loop node counts its trips and enters BODY, fails with 0x17, or leaves, a join node waits for the NOWAIT
nodes; control then passes to the successor. A graph that is over writes its record and goes. -/
def Obligations.GraphStepsComplete : Prop :=
  ∀ (s : State) (g n : Nat) (x : Graph), s.graph? g = some x →
    let i := x.at_
    let ws := x.words i
    let w (j : Nat) : Nat := (ws.getD j 0).toNat
    let next := nodeNext ws
    let started := if nodeMode ws 0 then (x.start true).goTo next s.tide else x.start false
    let moves (ins : Instr) (to_ : Nat) (P : State → Prop) : Prop :=
      ∃ t, exec ins s = .next t ∧ s.passes t g to_ ∧ P t
    let fails (ins : Instr) (cause : Nat) (d : Nat → Prop) : Prop := ∃ t e, exec ins s = .next t ∧
      t.drains g (x.fail.getD (i, cause, e)) ∧ d e
    (∃ t m k, exec (.kernelNode g) s = .next t ∧ t.task? m = some k ∧ k.node = some (g, i) ∧
      k.record = nodeRecord x ws ∧ k.vf = x.vf ∧ k.part = x.part ∧
      (k.state = .ready ∧ t.graph? g = some started ∨
        k.state = .ending ∧ k.verdict.isSome = true ∧ t.graph? g = some (x.start (nodeMode ws 0)))) ∧
    (∃ t j, exec (.copyNode g) s = .next t ∧ t.copies = s.copies ++ [j] ∧ t.graph? g = some started ∧
      j.graph = g ∧ j.node = i ∧ j.src = w 1 ∧ j.dst = w 2 ∧ j.len = w 3 ∧ j.start = s.tide ∧ t.held = s.held ∧
      (j.failed = if w 1 < w 2 + w 3 ∧ w 2 < w 1 + w 3 then some (0, some 0x16) else none) ∧
      (j.ether = false → ∃ d ∈ t.agenda, d.ev = .copyNodeComplete j.id ∧ s.tide < d.at_)) ∧
    (∀ j, s.copies.find? (fun y => y.id == n) = some j → j.graph = g → s.copyBusy x j = false →
      (∃ t, exec (.copyNodeComplete n) s = .next t ∧ t.copies = s.copies.filter (fun y => y.id != n)) ∧
      let y := x.words j.node
      (y.getD 5 0 = 0 → x.nowait.contains j.node = false →
        (∀ cause d, j.failed = some (cause, some d) → ∃ t, exec (.copyNodeComplete n) s = .next t ∧
          t.drains g (x.fail.getD (j.node, cause, d)) ∧ t.held = s.held) ∧
        (∀ a b, j.failed = none → 1 ≤ j.len → j.src % 2 ^ 16 + j.len ≤ 2 ^ 16 → j.dst % 2 ^ 16 + j.len ≤ 2 ^ 16 →
          s.nodeAt x j.src .command a → s.nodeAt x j.dst .commandStore b → s.badAt a j.len = none →
          ∃ t z, exec (.copyNodeComplete n) s = .next t ∧ s.stores t b (s.device.read a j.len) ∧
            t.graph? g = some z ∧ z.waiting = false ∧ z.fail = x.fail ∧
            (x.state = .running → z.at_ = nodeNext y)))) ∧
    (∀ a, s.nodeAt x (w 1) .store a →
      let m := if nodeMode ws 1 then 8 else 4
      (nodeMode ws 0 = true → s.badAt a m = none) → moves (.signalNode g) next (fun t => s.stores t a
        (bytesOfNat m (if nodeMode ws 0 then natOfBytes (s.device.read a m) + w 2 else w 2)))) ∧
    (∀ a, s.nodeAt x (w 1) .load a → s.badAt a 4 = none →
      let v := natOfBytes (s.device.read a 4)
      let count := Sparse.get 0 x.counts i
      let counted (m : Nat) (t : State) : Prop :=
        ∃ y, t.graph? g = some y ∧ Sparse.get 0 y.counts i = m ∧ t.held = s.held
      (∀ ins ∈ [Instr.waitNode g, .waitNodeReread g], (ins = .waitNodeReread g → x.waits = true) →
        s.virtualBusy x.part x.die .load (w 1) 4 = false →
        (waitHolds ws v = true → moves ins next (fun t => t.held = s.held)) ∧
        (waitHolds ws v = false → ∃ t, exec ins s = .next t ∧ t.graph? g = some { x with waiting := true } ∧
          t.held = s.held ∧ ∃ d ∈ t.agenda, d.ev = .waitNodeReread g ∧ s.tide < d.at_ ∧ d.at_ ≤ s.tide + 256)) ∧
      (wbits (ws.getD 3 0) 31 0 ≠ 0 → ∃ t, exec (.waitNode g) s = .next t ∧
        ⟨x.since + wbits (ws.getD 3 0) 31 0 * 2 ^ 16, .waitNodeTimeout g, 0⟩ ∈ t.agenda) ∧
      moves (.conditionalNode g) (if v = 0 then nodeAlt ws else next) (fun t => t.held = s.held) ∧
      (x.leaving = none → (count ≠ 0 ∨ nodeMode ws 0 = false) →
        (v ≠ 0 → count < w 2 → moves (.loopNode g) (nodeAlt ws) (counted (count + 1))) ∧
        (v ≠ 0 → w 2 ≤ count → nodeMode ws 1 = true → fails (.loopNode g) 0 (fun d => d = 0x17)) ∧
        ((v = 0 ∨ w 2 ≤ count ∧ nodeMode ws 1 = false) →
          (w 3 = 0 → moves (.loopNode g) next (counted 0)) ∧
          (w 3 ≠ 0 → s.virtualBusy x.part x.die .store (w 3) 4 = true →
            ∃ t, exec (.loopNode g) s = .next t ∧ t.graph? g = some { x with leaving := some count } ∧
              t.held = s.held) ∧
          ∀ b, w 3 ≠ 0 → s.virtualBusy x.part x.die .store (w 3) 4 = false → s.nodeAt x (w 3) .store b →
            moves (.loopNode g) next (fun t =>
              s.stores t b (bytesOfNat 4 count) ∧ ∃ y, t.graph? g = some y ∧ Sparse.get 0 y.counts i = 0)))) ∧
    (∀ m b, x.leaving = some m → w 3 ≠ 0 → s.virtualBusy x.part x.die .store (w 3) 4 = false →
      s.nodeAt x (w 3) .store b → moves (.loopNode g) next (fun t => s.stores t b (bytesOfNat 4 m))) ∧
    (x.leaving = none → Sparse.get 0 x.counts i = 0 → nodeMode ws 0 = true → moves (.loopNode g) (nodeAlt ws) (fun t =>
      ∃ y, t.graph? g = some y ∧ Sparse.get 0 y.counts i = 1)) ∧
    (x.waits = true → x.since + wbits (ws.getD 3 0) 31 0 * 2 ^ 16 = s.tide →
      fails (.waitNodeTimeout g) 0x1B (fun _ => True)) ∧
    (x.nowait = [] → moves (.joinNode g) next (fun t => t.held = s.held)) ∧
    (s.completionBusy x.part x.die (x.record.getD 2 0) = false →
      ∃ t, exec (.graphComplete g) s = .next t ∧ t.graph? g = none ∧ t.tasks = s.tasks ∧
      (wbit (x.record.getD 2 0) 0 = false → (s.func x.vf).flr = false → let o := x.outcome
        t.host.read ((x.record.getD 2 0).toNat / 32 * 32) 32 =
          recordBytes o.1 o.2.1 x.ncorr o.2.2 (x.record.getD 4 0) x.taken s.tide ∧ t.held = s.held))

/-! ### Scheduling gangs -/

/-- R103, R104, R106, R107, R108, R110, R113, R118: in the highest class that has an admittable task, the partition whose
turn it is has its oldest such task load on its placement where its deficit covers it, and pays for it; one whose deficit
does not keeps what it has, one without such a task loses it, and the next in turn is owed 64 more; none is admitted while
power or heat holds admission; a placement leaves every core as R107 says, with the launch block in its registers; a row that has been
read is Next, or Live for the
task that the core runs, with the words that memory held; at its start tide a gang runs with TBASE at that tide; a gang
whose cores are quiet ends at this tide, a failed one at the tide of its freeze; a pre-emption stop stops the anchor
at once and every other core after its lag, and 16 tc after the last the cores are free and the task is Parked. That the
placement sets the launch registers 64 tc before GANG_START, which leaves them, is the model's choice (log 30); so is that
an end or a release waits for commands cut short and for writes not yet accepted (log 43). -/
def Obligations.SchedulingCompletes : Prop :=
  ∀ (s : State) (d n c row : Nat) (k : Task), s.task? n = some k →
    let becomes (i : Instr) (st : TaskState) (P : State → Task → Prop) : Prop :=
      ∃ t y, exec i s = .next t ∧ t.task? n = some y ∧ y.state = st ∧ P t y
    let freed (t : State) (i : Nat) : Prop := (t.core i).task = none ∧ (t.core i).mode = .idle ∧
      (t.core i).inflight = [] ∧ (t.core i).captured = [] ∧ (t.core i).reqs = [] ∧ (t.core i).cmds = []
    exec (.reservationCandidate n) s = .next (s.setTask n { k with candidate := true }) ∧
    (∀ cs, s.tasks = [(n, k)] → k.owner = d → k.state = .ready → k.candidate = false → d < 4 →
      s.admittable n k = some cs → vget 0 (s.sched d).cur k.prio = k.part →
      (cs.length : Int) ≤ (s.sched d).def_ k.part k.prio →
      becomes (.admissionDecision d) .loading (fun t y => y.cores = cs ∧ y.decision = s.tide ∧
        y.hmode = s.hmodeOf k.part ∧ (y.h, y.d) = horizonOf cs ∧
        (t.sched d).def_ k.part k.prio = (s.sched d).def_ k.part k.prio - cs.length)) ∧
    (∀ cl i m y cs, d < 4 → cl < 4 → (s.tasks.map Prod.fst).Nodup →
      (∀ e ∈ s.tasks, e.2.candidate = false ∧ e.2.state ≠ .reserved) →
      let all := s.admittables d
      let x := s.sched d
      let p := vget 0 x.cur cl
      let turn (j : Nat) : Nat := (p + j) % 32
      let owed (j : Nat) : Int := x.def_ (turn j) cl + (if j = 0 then 0 else 64)
      let oldest (j : Nat) := all.find? (fun e => e.1.2.prio == cl && e.1.2.part == turn j)
      (∀ e ∈ all, e.1.2.prio ≤ cl) → p < 32 → i < 32 → oldest i = some ((m, y), cs) → (cs.length : Int) ≤ owed i →
      (∀ j, j < i → ∀ e, oldest j = some e → owed j < e.2.length) →
      ∃ t z, exec (.admissionDecision d) s = .next t ∧ t.task? m = some z ∧ z.state = .loading ∧ z.cores = cs ∧
        vget 0 (t.sched d).cur cl = turn i ∧ (t.sched d).def_ (turn i) cl = owed i - cs.length ∧
        ∀ j, j < 32 → j ≠ i → (t.sched d).def_ (turn j) cl =
          if i < j then x.def_ (turn j) cl else if (oldest j).isSome then owed j else 0) ∧
    ((s.phold = true ∨ s.thold = true) → ∃ t, exec (.admissionDecision d) s = .next t ∧
      ∀ m y, t.task? m = some y → y.state = .loading → ∃ z, s.task? m = some z ∧ z.state = .loading) ∧
    (∀ i l bs u, c < 256 → (s.core c).loadingRow row = some (i, l) → l.task = n → c ∈ k.cores →
      s.heldBusy k (k.rowAddr c row) 1024 = false → s.readHeld k.owner k [(k.rowAddr c row, 1024)] = (some bs, u) →
      ∃ t, exec (.rowLoadComplete c row) s = .next t ∧ (t.core c).lease.find i =
          some { l with state := if (s.core c).task = some n then .live else .next } ∧
        ∀ j, j < 256 → Sparse.get 0 (t.core c).istore (i * 256 + j) = (rowWords bs).getD j 0) ∧
    (∀ bs u i, k.commits = 0 → i ∈ k.cores → i < 256 →
      s.readHeld k.owner k [((k.word 1).toNat, 64)] = (some bs, u) →
      let y := (s.place n k).core i
      (∀ r, r < 24 → y.reg r = 0) ∧ (∀ r, r < 8 → y.reg (24 + r) = (words64 8 bs).getD r 0) ∧
      (∀ r, r < 16 → y.tile r = {} ∧ y.ring r = {}) ∧ (∀ f, f < 32 → y.flag f = 0) ∧ y.acc = [] ∧ y.mbuf = [] ∧
      y.stream.fmtq = [] ∧ y.stream.pc = 0 ∧ y.stream.fetching = true ∧ y.vheap = 0 ∧
      (∀ b, (y.block b).state = .free) ∧ y.slip = 0 ∧ y.hmode = k.hmode ∧ y.scratch = (u.core i).scratch ∧
      y.vid = (s.virtual k.part i).getD 0 ∧ (s.place n k).cohort = u.cohort ∧
      ⟨s.tide + 64, .gangStart n, 0⟩ ∈ (s.place n k).agenda) ∧
    (k.state = .loading → k.placement.map (· + 64) = some s.tide → becomes (.gangStart n) .running (fun t y =>
      y.start = s.tide ∧ y.run = w64 s.tide ∧ y.cores = k.cores ∧ ∀ i ∈ k.cores, i < 256 →
        (t.core i).task = some n ∧ (t.core i).mode = .running ∧ (t.core i).tbase = s.tide ∧ (t.core i).slip = 0 ∧
        (t.core i).sreg = (s.core i).sreg ∧ ∀ e, e < 8 → ((t.core i).queue e).nxt = s.tide)) ∧
    (k.state = .running → (k.verdict.isSome = true → ∀ i ∈ k.cores, (s.core i).cmds = [] ∧ (s.core i).reqs = []) →
      becomes (.gangEnd n) .ending (fun t y =>
        y.endTide = some (if k.verdict.isSome then k.frozenAt s.tide else k.endTide.getD s.tide) ∧
          y.verdict = k.verdict ∧ ∀ i ∈ k.cores, freed t i)) ∧
    (∀ i r bs, k.state = .running → k.verdict.isSome = true → (∀ j ∈ k.cores, (s.core j).cmds = []) → i ∈ k.cores →
      (s.core i).reqs = [r] → r.op = .store bs → ∃ t, exec (.gangEnd n) s = .next t ∧ t.task? n = some k ∧
        ⟨s.tide + 1, .gangEnd n, 0⟩ ∈ t.agenda) ∧
    (∀ a others, k.state = .running → k.cores = a :: others → becomes (.preemptionStop n) .stopping (fun t y =>
      ∃ st, y.stop = some st ∧ st.kind = .preempt ∧ st.plane = s.tide + k.h ∧
        ⟨st.allFrozen + 16, .coreRelease n, 0⟩ ∈ t.agenda ∧
        (∀ i ∈ others, s.tide + freezeLag a i ≤ st.allFrozen ∧
          ⟨s.tide + freezeLag a i, .freezeArrival i, 0⟩ ∈ t.agenda) ∧
        ((s.core a).stoppable = true → (t.core a).mode = .frozen) ∧
        ((∀ i ∈ k.cores, ∀ x ∈ (s.core i).cmds, x.moves.limit = none ∧ x.isMoving = false ∧ cmdCompl x.words = 0) →
          ∀ i ∈ k.cores, (t.core i).cmds = []))) ∧
    (k.state = .stopping → (∃ i ∈ k.cores, (s.core i).cmds ≠ []) →
      (∀ i ∈ k.cores, ∀ x ∈ (s.core i).cmds, x.moves.limit.isSome = true) → ∃ t, exec (.coreRelease n) s = .next t ∧
        t.task? n = some k ∧ ⟨s.tide + 1, .coreRelease n, 0⟩ ∈ t.agenda) ∧
    (k.state = .stopping → (∀ i ∈ k.cores, (s.core i).cmds = []) →
      (k.verdict = none → becomes (.coreRelease n) .parked (fun t y => y.cores = [] ∧ y.stop = none ∧
        y.preempts = k.preempts + 1 ∧ y.endTide = some (k.frozenAt s.tide) ∧
        y.lost = k.lost + (k.frozenAt s.tide - if k.lastc = 0 then k.start else k.lastc) ∧
        ∀ i ∈ k.cores, freed t i ∧ ∀ b, b < (t.core i).heapBlocks → ((t.core i).block b).state = .free)) ∧
      (k.verdict.isSome = true → becomes (.coreRelease n) .ending (fun t y =>
        y.endTide = some (k.frozenAt s.tide) ∧ y.verdict = k.verdict ∧ ∀ i ∈ k.cores, freed t i)))

/-- R113 to R115, R131, R138, R140: the bound of a non-pre-emptible gang and the watchdogs of a HALT, a slip and a gate
end a running task with 0x1B, the virtual id of its core in DETAIL; a gate's, of a handler or of the kernel, is recorded in
the core's frame, with PRECISE 0 and the queue of the gate word, which is the model's choice (log 27). -/
def Obligations.WatchdogsComplete : Prop :=
  ∀ (s : State) (n c : Nat) (k : Task), s.task? n = some k → (s.core c).task = some n → k.state = .running →
    k.verdict = none →
    let late (i : Instr) (P : State → Prop) : Prop := ∃ t y, exec i s = .next t ∧ t.task? n = some y ∧
      y.state = .ending ∧ y.verdict = some ⟨0x03, 0x1B, BitVec.ofNat 32 (s.core c).vid⟩ ∧ t.held = s.held ∧ P t
    late (.haltWatchdogExpiry c) (fun _ => True) ∧
    late (.gateWatchdogExpiry c) (fun t => (s.core c).ownFault = false →
      let g := if s.waitedLong c (s.core c).stream.gate then (s.core c).stream.gate else (s.core c).kernelGate
      (t.core c).fcause = fcauseOf false true g.eng 0x1B ∧ (t.core c).finfo = w64 g.cls.code) ∧
    (k.cores.head? = some c → ∃ t y, exec (.runmaxExpiry n) s = .next t ∧ t.task? n = some y ∧ y.state = .ending ∧
      y.verdict = some ⟨0x03, 0x1B, BitVec.ofNat 32 ((s.virtual k.part (k.cores.headD 0)).getD 0)⟩ ∧
      t.held = s.held) ∧
    (∀ st, k.stop = some st → st.core = c → late (.slipWatchdogExpiry n) (fun _ => True))

/-- R135 to R138, R142, R143: a plane and the arrival of a freeze stop a core: what it has in flight for the plane or
later is captured; the resume gives it back, later by W, with TBASE and SLIP moved on by W and V clear; a handler
begins 16 tc from now at TRAPVEC with the kernel's stream set aside, and without one the task ends. -/
def Obligations.StopStepsComplete : Prop :=
  ∀ (s : State) (n c : Nat) (k : Task) (st : Stop), s.task? n = some k → k.stop = some st → c < 256 →
    (s.core c).task = some n → c ∈ k.cores → k.cores.Nodup →
    let x := s.core c
    let stopped (y : Core) : Prop := y.mode = .frozen ∧
      y.inflight = x.inflight.filter (fun p => !(p.exposed && st.plane ≤ p.at_)) ∧
      y.captured = x.captured ++ x.inflight.filter (fun p => p.exposed && st.plane ≤ p.at_)
    let w := s.tide - st.f
    (x.stoppable = true → st.pending s.tide = false → ∃ t, exec (.freezeArrival c) s = .next t ∧ stopped (t.core c) ∧
      t.held = s.held ∧ (st.kind = .fault → ∀ e, e < 8 → vget 0 (t.core c).ffr e = x.ffrOf e)) ∧
    (∃ t, exec (.slipPlane n) s = .next t ∧ stopped (t.core c) ∧ t.held = s.held ∧
      ∀ e i, st.traps = [(c, e, i)] → (t.core c).fcause = fcauseOf true true e 0x06 ∧ (t.core c).finfo = i) ∧
    (st.resume = some s.tide → ∀ i ∈ [Instr.slipResume n, .gangResume n], ∃ t, exec i s = .next t ∧
      (t.task? n).map Task.stop = some none ∧ (t.core c).tbase = x.tbase + w ∧ (t.core c).slip = x.slip + w ∧
      (t.core c).mode = (if x.haltTide = 0 then .running else .halted) ∧ wbit (t.core c).fcause 63 = false ∧
      (t.core c).inflight = x.inflight ++ x.captured.map (fun p => { p with at_ := p.at_ + w }) ∧
      (t.core c).captured = [] ∧ t.held = s.held) ∧
    (s.handlersLeft k st = some c →
      (wbit x.trapvec 31 = true → ∃ t, exec (.handlerStart n) s = .next t ∧ (t.core c).mode = .handler ∧
        (t.core c).tbase = s.tide + 16 ∧ (t.core c).stream.pc = wbits x.trapvec 13 0 ∧
        (t.core c).saved = some x.stream ∧ (t.core c).kbase = x.tbase ∧ t.held = s.held ∧
        (∀ e, e < 8 → ((t.core c).queue e).words = [] ∧ ((t.core c).queue e).nxt = s.tide + 16) ∧
        (t.task? n).bind Task.stop = some { st with handlers := st.handlers ++ [c] }) ∧
      (wbit x.trapvec 31 = false → k.state = .running → ∃ t, exec (.handlerStart n) s = .next t ∧ t.ends n ∧
        t.held = s.held))

/-! ### The timing of a core -/

/-- R123, R133 to R136, R146, R173, R187, R188, R300: fetch delivers the word at its point to the queue that its E field
names; a presence check that finds nothing missing moves the window on, and one that does announces a miss for the
earliest plane; a reloaded tile is present with its saved or zero content; the end of a walk brings its entry or the
fault 0x0E; a word that is none records 0x01 or 0x02; a Cooling value becomes Free with its tags moved on, or, while it
is held, makes its gang slip. -/
def Obligations.CoreStepsComplete : Prop :=
  ∀ (s : State) (c n e : Nat) (k : Task) (code : Byte) (info : W64), c < 256 → (s.core c).task = some n →
    s.task? n = some k →
    let x := s.core c
    let tile := x.tile e
    let blk := x.block e
    (∀ w, x.stream.fetching = true → x.streamWord (s.fetchRows c) x.stream.pc = some w →
      (x.queue (engineOf w)).words.length < 64 → ∃ t, exec (.fetch c) s = .next t ∧ t.held = s.held ∧
        ∃ q ∈ ((t.core c).queue (engineOf w)).words, q.word = w ∧ q.addr = x.stream.pc) ∧
    (earliest (s.missesOf c) = none → exec (.presenceCheck c) s = .next (s.modCore c (fun y =>
      { y with checked := Nat.max y.checked (s.tide + s.horizon c) }))) ∧
    (∀ f, earliest (s.missesOf c) = some f → x.mode = .running → k.stop = none →
      ∃ t, exec (.presenceCheck c) s = .next t ∧ s.announces t n c f ∧ t.held = s.held) ∧
    (x.awaitsData s.subject = true → exec (.tileReloadComplete c e) s =
      .next (s.due (s.tide + 1) (.tileReloadComplete c e) s.subject)) ∧
    (e < 16 → tile.a = true → x.awaitsData s.subject = false → ∃ t, exec (.tileReloadComplete c e) s = .next t ∧
      let y := (t.core c).tile e
      y.a = false ∧ y.shape = tile.shape ∧ y.cur = tile.cur ∧ y.d = tile.d ∧ (t.core c).scratch = x.scratch ∧
      (∀ a, y.data.get a = if tile.z = false ∧ a < 8192 then x.scratch.get (x.saveData e + a) else 0) ∧
      (∀ a, y.side.get a = if tile.z = false ∧ a < 512 then x.scratch.get (x.saveSide e + a) else 0) ∧
      ∀ m, m ≠ e → (t.core c).tile m = x.tile m) ∧
    (∀ g va a rep, x.walk = some (g, va, a, rep) → s.tablesBusy x.part va = false →
      (x.mode = .handler ∨ ∀ st, k.stop = some st → st.kind.frames = false) →
      ∃ t, exec (.translationWalkDone c) s = .next t ∧
      (t.core c).walk = none ∧ t.held = s.held ∧
      (∀ l, s.walk x.part (dieOf c) a va = .ok l → ∃ y ∈ (t.core c).tlb, y.va = l.va ∧ y.size = l.size ∧
        y.tgt = l.tgt ∧ y.kind = l.kind ∧ y.frame = l.frame ∧ y.count = 0) ∧
      (∀ level reason, s.walk x.part (dieOf c) a va = .error (.fault level reason) →
        s.records t c g true 0x0E (transInfo level (if rep.isSome && reason = 0 then 5 else reason) va)) ∧
      ∀ w, s.walk x.part (dieOf c) a va = .error w → (∀ level reason, w ≠ .fault level reason) →
        s.records t c g true w.cause (w.info g va)) ∧
    (∃ t, exec (.illegalWord c e code info) s = .next t ∧ s.records t c e true code.toNat info ∧
      t.held = s.held) ∧
    (x.heldRun e (blk.len + 1) = false → ∃ t, exec (.coolingReclaim c e) s = .next t ∧ t.held = s.held ∧ ∀ b,
      (t.core c).block b = if e ≤ b ∧ b ≤ e + blk.len then
        { holds := (x.block b).holds, tag := (x.block b).tag + 1 } else x.block b) ∧
    (x.heldRun e (blk.len + 1) = true → k.stop = none → ∃ t, exec (.coolingReclaim c e) s = .next t ∧
      s.announces t n c s.tide ∧ t.held = s.held)

/-- R129, R130, R334, R416, R419, R424, R426: a core whose queues have issued GATE arrives; an arrival at a barrier is
told to the other cores of its set, and one whose set differs from a pending one traps with 0x17; the attempts of locks
and futures perform 12 tc later at cohort memory, or travel to their home; an opening gate begins the next segment of
every core concerned D tc later, with RCON's slot or TAKE's value in its register, and at the end of an epilogue the
checkpoint is committed. The gate of a handler leaves the barriers alone. That an attempt at cohort memory comes again at
the next tc while an RFENCE is outstanding is the model's choice (log 21). -/
def Obligations.GateStepsComplete : Prop :=
  ∀ (s : State) (c n : Nat) (k : Task), c < 256 → (s.core c).task = some n → s.task? n = some k →
    let x := s.core c
    let g := x.stream.gate
    let arrived : State := s.modCore c (fun y => y.setGate { g with arrived := some s.tide })
    let cs := if x.mode = .handler then [c] else s.concerned c
    let tries (i : Instr) : Prop := ∀ op u scope order, x.kernelGate.attemptOp = some (op, u, scope, order) →
      x.kernelGate.arrived.isSome = true → x.kernelGate.busy = false → x.kernelGate.holds = false →
      (∀ a, u = .cohort a → x.reqs.any (fun r => r.op == .rfence) = false) → ∃ t, exec i s = .next t ∧
        (t.core c).kernelGate.busy = true ∧ t.held = s.held ∧
        (∀ a, u = .cohort a → ∃ p, (t.core c).inflight = x.inflight ++ [p] ∧ p.at_ = s.tide + 12 ∧
          p.op = .rmw 0 (.cohort a) op 0 { acq := if order % 2 = 1 then some (scope, 0) else none }) ∧
        (∀ va target e, u = .global va target e → ∃ r, (t.core c).reqs = x.reqs ++ [r] ∧ r.op = .rmw 0 op 0 ∧
          r.pieces = [⟨va, target, op.size⟩] ∧ r.gate = true)
    (x.mode = .handler → exec (.gateArrival c) s = .next arrived) ∧
    (x.saved = none → g.attemptOp = none → (∀ set scope order, g.cls ≠ .bar (some set) scope order) →
      exec (.gateArrival c) s = .next arrived) ∧
    (∀ set scope order, x.mode ≠ .handler → g.cls = .bar (some set) scope order → k.cores.Nodup →
      let clash := ∃ b ∈ s.bars, b.core ∈ k.cores ∧ b.lo ≤ x.gidx ∧ x.gidx ≤ b.hi ∧ (b.lo, b.hi) ≠ set
      (¬ clash → ∃ t, exec (.gateArrival c) s = .next t ∧ (t.core c).kernelGate.arrived = some s.tide ∧
        t.held = s.held ∧ (∃ b, t.bars = s.bars ++ [b] ∧ b.core = c ∧ (b.lo, b.hi) = set ∧ b.at_ = s.tide) ∧
        (t.flits.drop s.flits.length).map Flit.kind =
          ((k.inSet set).filter (fun d => d != c)).map (FlitKind.barrier c)) ∧
      (clash → ∃ t, exec (.gateArrival c) s = .next t ∧
        s.records t c 6 true 0x17 (w64 (g.word.getD 0 % 2 ^ 14)) ∧ t.held = s.held)) ∧
    tries (.lockAttempt c) ∧ tries (.takeRead c) ∧
    (∀ op a scope order, x.kernelGate.attemptOp = some (op, .cohort a, scope, order) →
      x.kernelGate.arrived.isSome = true → x.kernelGate.busy = false → x.kernelGate.holds = false →
      x.reqs.any (fun r => r.op == .rfence) = true →
      exec (.lockAttempt c) s = .next (s.due (s.tide + 1) (.lockAttempt c) 0)) ∧
    (cs.Nodup → (x.mode = .handler ∨ (∀ i ∈ k.cores, (s.core i).epi.active = false) ∧ x.epi.active = false) →
      ∃ t, exec (.gateOpen c) s = .next t ∧ (x.mode = .handler → t.bars = s.bars) ∧
        (x.mode ≠ .handler → ∀ b ∈ t.bars, b.core ∉ cs) ∧ ∀ i ∈ cs, i < 256 →
        let y := t.core i
        let z := s.core i
        y.tbase = s.tide + s.gateDelay i ∧ y.gateOpen = s.tide ∧ y.stream.gate = {} ∧ y.scratch = z.scratch ∧
        (∀ e, e < 8 → (y.queue e).words = (z.queue e).words ∧ (y.queue e).arrived = false ∧
          (y.queue e).nxt = s.tide + s.gateDelay i) ∧
        (∀ d r, z.stream.gate.cls = .rcon d r → 0 < d → d < 32 → r < 16 → (y.ring r).con = (z.ring r).con + 1 ∧
          y.reg d = (z.ring r).slotWord (z.ring r).con) ∧
        (∀ d u scope order, z.stream.gate.cls = .take d u scope order → 0 < d → d < 32 →
          y.reg d = z.stream.gate.value)) ∧
    (x.mode ≠ .handler → k.cores = [c] → x.epi.active = true → x.uncommittable = none → g.cls = .plain →
      ∃ t y, exec (.gateOpen c) s = .next t ∧ t.task? n = some y ∧ y.commits = k.commits + 1 ∧
        y.lastc = s.tide ∧ y.shielded = false ∧ (t.core c).epi = {})

/-! ### Memory and its services -/

/-- R174, R198, R207, R383, R410: a global access that reaches its home leaves core order; a load's data land in its
register, tile row or value, an atomic's old unit in its register with the new unit in memory, a store's bytes in
memory; data that cannot be read raise 0x19, a refusal 0x0E, and an atomic that a lock or future refuses its fault; an
acknowledgement ends its near-memory request, or leaves its error for the release that waits for it. What lands on a core
whose gang has stopped for good is discarded. The model's choices: an error waits while a fault that governs stops the gang
or is the core's own at this tide (log 22), and the 0x19 of an atomic has QUEUE 4 and in FINFO its line's address, as a
load's has (log 25). -/
def Obligations.LandingsComplete : Prop :=
  ∀ (s : State) (c n : Nat) (r : GReq), c < 256 → (s.core c).req n = some r →
    let x := s.core c
    let load := Instr.globalLoadLanding c n
    let gone (t : State) : Prop := (t.core c).req n = none
    let fetched := s.fetchPieces (dieOf c) r.pieces
    let lost (i : Instr) (va : Nat) (f : Fetched) : Prop :=
      (s.discards c = true → ∃ t, exec i s = .next t ∧ gone t ∧ (t.core c).fcause = x.fcause) ∧
      (s.discards c = false → s.errorWaits c r = true → exec i s = .next s) ∧
      (s.discards c = false → s.errorWaits c r = false → ∃ t, exec i s = .next t ∧ gone t ∧
        (∀ off, f = .bad off → s.records t c 4 false 0x19 (landingInfo (va + off))) ∧
        (f = .refused → s.records t c r.eng false 0x0E (transInfo 7 3 va)))
    (s.discards c = true → (∀ d op ptr, r.op ≠ .rmw d op ptr) → ∃ t, exec load s = .next t ∧ gone t ∧
      (t.core c).sreg = x.sreg ∧ (t.core c).tiles = x.tiles ∧ t.held = s.held) ∧
    (∀ d size sx bs u, s.discards c = false → r.op = .load d size sx → d < 32 → fetched = (.ok bs, u) →
        ∃ t, exec load s = .next t ∧
      gone t ∧ (d ≠ 0 → (t.core c).reg d = loaded sx bs) ∧ (t.core c).isPending (.reg d) = false ∧
      (∀ m, m < 32 → m ≠ d → (t.core c).reg m = x.reg m) ∧ t.device = s.device ∧ t.cohort = s.cohort) ∧
    (∀ m off len bs u, s.discards c = false → r.op = .loadRow m off len → m < 16 → (x.tile m).a = false →
        fetched = (.ok bs, u) →
      ∃ t, exec load s = .next t ∧ gone t ∧ (t.core c).isPending (.tile m) = false ∧
        ((t.core c).tile m).data.read off (bs.take len).length = bs.take len ∧
        (t.core c).sreg = x.sreg ∧ ∀ j, j ≠ m → (t.core c).tile j = x.tile j) ∧
    (∀ v len bs u, s.discards c = false → r.op = .loadValue v len → fetched = (.ok bs, u) →
        ∃ t y, exec load s = .next t ∧
      (t.core c).req n = some y ∧ y.op = .landing v len ∧ (t.core c).scratch = x.scratch ∧
      (t.core c).arriving = (x.bring n s.tide (x.blockAddr v) bs).arriving ∧ (t.core c).sreg = x.sreg) ∧
    (∀ v len, r.op = .landing v len → ∃ t, exec load s = .next t ∧ gone t ∧ (t.core c).isPending (.value v) = false ∧
      (t.core c).scratch = x.scratch ∧ (t.core c).sreg = x.sreg ∧ ∀ b, ((t.core c).block b).holds =
        if v ≤ b ∧ b < v + blocksOf len then (x.block b).holds - 1 else (x.block b).holds) ∧
    ((∀ d op ptr, r.op ≠ .rmw d op ptr) → (∀ v len, r.op ≠ .landing v len) → ∀ va f u,
        fetched = (.error (va, f), u) → lost load va f) ∧
    (∀ d op ptr p f u, r.op = .rmw d op ptr → op.attempt = false → r.pieces = [p] →
      s.atomicTarget (dieOf c) p.target op = (.error f, u) → lost load p.va f) ∧
    (∀ d op ptr va a m, r.op = .rmw d op ptr → d < 32 → r.pieces = [⟨va, .device a, m⟩] →
      s.badAt a op.size = none →
      let y := op.apply (s.device.read a op.size)
      (s.discards c = true → ∃ t, exec load s = .next t ∧ gone t ∧ (t.core c).sreg = x.sreg ∧
        (∀ bs, y.new = some bs → t.device.read a bs.length = bs) ∧ (y.new = none → t.device = s.device)) ∧
      (s.discards c = false → s.releaseWaits c r = true → exec load s = .next s) ∧
      (s.discards c = false → s.releaseWaits c r = false → y.ok = true → ∃ t, exec load s = .next t ∧ gone t ∧ (d ≠ 0 →
        (t.core c).reg d = y.value) ∧
        (∀ bs, y.new = some bs → t.device.read a bs.length = bs ∧
          ∀ b, (b < a ∨ a + bs.length ≤ b) → t.device.get b = s.device.get b) ∧
        (y.new = none → t.device = s.device)) ∧
      (s.discards c = false → y.ok = false → op.attempt = false → s.errorWaits c r = false →
        (∀ q ∈ x.near, q.acked = true → q.error = none) → ∃ t, exec load s = .next t ∧ gone t ∧
        ((∀ v, op ≠ .fill v) → s.records t c 6 false 0x0F (protInfo 1 6 va)) ∧
        (∀ v, op = .fill v → s.records t c 6 false 0x14 ptr))) ∧
    (s.releaseWaits c r = true → exec (.globalWriteAck c n) s = .next s) ∧
    (∀ bs va a, s.releaseWaits c r = false → r.op = .store bs → r.pieces = [⟨va, .device a, bs.length⟩] →
      ∃ t, exec (.globalWriteAck c n) s = .next t ∧ gone t ∧ (t.core c).sreg = x.sreg ∧ t.cohort = s.cohort ∧
        t.device.read a bs.length = bs ∧ ∀ b, (b < a ∨ a + bs.length ≤ b) → t.device.get b = s.device.get b) ∧
    (∀ va u, s.storePieces (dieOf c) r.pieces (x.storeBytesOf r.op) = (some va, u) →
      (∀ y ∈ x.near, y.acked = true → y.error = none) →
      lost (.globalWriteAck c n) va .refused) ∧
    (∀ a, s.acks.find? (fun y => y.id == s.subject) = some a → a.core < 256 → ∃ t,
      exec .nearMemoryAck s = .next t ∧ t.held = s.held ∧
      (a.error = none → ∀ y ∈ (t.core a.core).near, y.id ≠ a.msg) ∧
      (∀ e, a.error = some e → (s.core a.core).task = some a.task → ∀ y ∈ (t.core a.core).near, y.id = a.msg →
        y.acked = true ∧ y.error = some e) ∧
      (a.status = none → ∀ y ∈ t.acks, y.id ≠ a.id) ∧
      (a.lost = true → t.ibsnd = saturate s.ibsnd) ∧ (a.lost = false → t.ibsnd = s.ibsnd))

/-- R222, R223: an accepted record changes its 32-bit target alone, and is acknowledged; one in a line that cannot
be read changes nothing and is acknowledged with 0x19. Addition wraps, minimum and maximum are signed, or of FP32. -/
def Obligations.ReductionsComplete : Prop :=
  ∀ (s : State) (m : Msg) (op dpa : Nat) (v : W32), s.msg s.subject = some m → m.kind = .red op dpa v →
    let old := natOfBytes (s.device.read dpa 4)
    let put (f : Nat → Prop) : Prop := s.badLine (dpa / 64) = false → ∃ t y, exec .redRecordApply s = .next t ∧
      t.device.read dpa 4 = bytesOfNat 4 y ∧ f y ∧ t.cores = s.cores ∧
      (∀ a, (a < dpa ∨ dpa + 4 ≤ a) → t.device.get a = s.device.get a) ∧
      t.msgs = s.msgs.filter (fun x => x.id != m.id) ∧ (m.core ≠ none → s.answers t m none none)
    put (fun y => y = reduced op old v.toNat) ∧
    (op = 1 → put (fun y => y = (old + v.toNat) % 2 ^ 32)) ∧
    (op = 2 → put (fun y => y = if signedOf 32 old ≤ signedOf 32 v.toNat then old else v.toNat)) ∧
    (op = 3 → put (fun y => y = if signedOf 32 v.toNat ≤ signedOf 32 old then old else v.toNat)) ∧
    (op = 4 → put (fun y => y = old &&& v.toNat)) ∧ (op = 5 → put (fun y => y = old ||| v.toNat)) ∧
    (s.badLine (dpa / 64) = true → ∃ t, exec .redRecordApply s = .next t ∧ t.device = s.device ∧
      t.cores = s.cores ∧ (m.core ≠ none → s.answers t m none (some (0x19, m.info))))

/-- R224 to R227, R397: the page operations, with their checks in order: an offline bank 0x1, another tag 0x2, a page
that is not in use or has another format 0x3, a shared page 0xF, a full one FULL, an element out of range RANGE. An
append stores its token at FILL and moves FILL on; START begins a page with the next tag; a rescale moves the elements
present; a fork counts a user more, or copies; a release counts one less, and the last ends the page. That a fork into an
offline bank answers 0x1, after the check that the page is free, is the model's choice (log 38). -/
def Obligations.PageOperationsComplete : Prop :=
  ∀ (s : State) (m : Msg) (page : Nat) (tag : W16), s.msg s.subject = some m → m.core ≠ none →
    let h := s.header page
    let base := s.pageBase page
    let off := (s.bank (page / 128)).offline
    let alters (i : Instr) (p : Nat) (g : PageHeader) (P : State → Prop) : Prop :=
      ∃ t, exec i s = .next t ∧ s.replied t m 0 0 p ∧ s.heads t p g ∧ P t
    let outside (t : State) (b : Nat) : Prop :=
      ∀ a, (a < b ∨ b + 32768 ≤ a) → t.device.get a = s.device.get a
    (∀ start fmt token range, m.kind = .kvAppend page tag start fmt token range → fmt < 4 →
      let no (st d : Nat) : Prop := s.declines .kvAppend m st d page
      let kx := halfValues fmt (token.take 256)
      let vx := halfValues fmt (token.drop 256)
      let kb (sc : Nat) : List Byte := storedHalf fmt sc (token.take 256)
      let vb (sc : Nat) : List Byte := storedHalf fmt sc (token.drop 256)
      let puts (g : PageHeader) (at_ : Nat) : Prop := alters .kvAppend page g (fun t => outside t base ∧
        t.device.read (base + at_) (kb g.ks ++ vb g.vs).length = kb g.ks ++ vb g.vs)
      (off = true → no 3 1) ∧ (off = false →
        (start = false → h.tag ≠ tag.toNat → no 3 2) ∧
        (start = true → h.share ≤ 1 → puts { share := 1, tag := (h.tag + 1) % 2 ^ 16, fmt := fmt, fill := 1
                                             ks := firstScale fmt kx, vs := firstScale fmt vx } 0) ∧
        ((start = true ∨ h.tag = tag.toNat) → 1 < h.share → no 3 0xF) ∧
        (start = false → h.tag = tag.toNat → h.share ≤ 1 →
          ((h.share = 0 ∨ h.fmt ≠ fmt) → no 3 3) ∧
          (h.share = 1 → h.fmt = fmt → (h.fill = fmtCapacity fmt → no 6 0) ∧
            (h.fill < fmtCapacity fmt → fits fmt h.ks kx = true → fits fmt h.vs vx = true →
              puts { h with fill := h.fill + 1 } (h.fill * fmtToken fmt)) ∧
            (h.fill < fmtCapacity fmt → (fits fmt h.ks kx = false ∨ fits fmt h.vs vx = false) →
              (range = true → no 5 0) ∧
              (range = false → puts { h with
                fill := h.fill + 1
                ks := if fits fmt h.ks kx then h.ks else scaleFor 448 h.ks (maxAbs kx)
                vs := if fits fmt h.vs vx then h.vs else scaleFor 448 h.vs (maxAbs vx) }
                  (h.fill * fmtToken fmt))))))) ∧
    (∀ v scale, m.kind = .kvRescale page tag v scale → scale < 256 →
      let no (st d : Nat) : Prop := s.declines .kvRescale m st d page
      let old := if v then h.vs else h.ks
      let half := fmtHalf h.fmt
      (off = true → no 3 1) ∧ (off = false → (h.tag ≠ tag.toNat → no 3 2) ∧ (h.tag = tag.toNat →
        (h.share = 0 → no 3 3) ∧
        (h.share ≠ 0 → ((2 ≤ h.fmt ∨ scale < old) → no 5 0) ∧
          (h.fmt < 2 → old ≤ scale → alters .kvRescale page (if v then { h with vs := scale } else
            { h with ks := scale }) (fun t => ∀ i, i < h.fill →
              let a := base + i * fmtToken h.fmt + if v then half else 0
              t.device.read a half = (s.device.read a half).map (fun b =>
                scaledE4M3 (valueOf tE4M3 b.toNat) ((old : Int) - scale)))))))) ∧
    (∀ dst, m.kind = .kvFork page tag dst →
      let no (st d : Nat) : Prop := s.declines .kvFork m st d page
      (off = true → no 3 1) ∧ (off = false → (h.tag ≠ tag.toNat → no 3 2) ∧ (h.tag = tag.toNat →
        (h.share = 0 → no 3 3) ∧
        (h.share ≠ 0 → h.share < 32767 → alters .kvFork page { h with share := h.share + 1 } (fun t =>
          t.device = s.device)) ∧
        (h.share = 32767 →
          ((dst = 0 ∨ dst / 2 ^ 21 ≠ page / 2 ^ 21 ∨ (s.header dst).share ≠ 0) → no 3 4) ∧
          (dst ≠ 0 → dst / 2 ^ 21 = page / 2 ^ 21 → (s.header dst).share = 0 →
            ((s.bank (dst / 128)).offline = true → no 3 1) ∧
            ((s.bank (dst / 128)).offline = false → alters .kvFork dst
              { h with share := 1, tag := ((s.header dst).tag + 1) % 2 ^ 16 } (fun t =>
                t.device.read (s.pageBase dst) 32768 = s.device.read base 32768 ∧
                outside t (s.pageBase dst))))))) ) ∧
    (m.kind = .kvRelease page tag →
      let no (st d : Nat) : Prop := s.declines .kvRelease m st d page
      (off = true → no 3 1) ∧ (off = false → (h.tag ≠ tag.toNat → no 3 2) ∧ (h.tag = tag.toNat →
        (h.share = 0 → no 3 3) ∧
        (h.share ≠ 0 → alters .kvRelease page (if h.share = 1 then
          { h with share := 0, fill := 0, tag := (h.tag + 1) % 2 ^ 16 } else { h with share := h.share - 1 })
            (fun t => t.device = s.device)))))

/-- R219, R220, R230 to R236: a posted scan is queued with this tide as its arrival; a scan that starts reads FILL
and the header once, and its record says by the checks in order what stopped it, with the reads that were corrected
before that, or holds the triple of its counted tokens; the refreshes of its bank, 1170 tc apart, are looked for from then
on; the record is sent to its slot, waits while the slot's reservation is captured, which is the model's choice (log 38),
and with its last line the slot is published; with a slot that no longer stands it comes to nothing. The order of the tag,
the format and an undefined page is the model's choice (log 64). -/
def Obligations.ScanStepsComplete : Prop :=
  ∀ (s : State) (x : PageScan), s.scans.find? (fun y => y.id == s.subject) = some x →
    let bank := s.bank (x.page / 128)
    let h := s.header x.page
    let at_ := (x.tokens h.fill).1
    let n := (x.tokens h.fill).2
    let first := s.pageBase x.page + at_ * fmtToken x.fmt
    let fixed := s.scanFixed x first n
    let starts (P : Nat → List Nat → List Byte → Nat → Prop) : Prop := ∃ t y m l r, exec .pageScanStart s = .next t ∧
      y ∈ t.scans ∧ y.id = x.id ∧ y.state = .scanning m l r ∧ s.tide ≤ y.due ∧ t.held = s.held ∧
      (∃ d ∈ t.agenda, d.ev = .bankRefresh (x.page / 128) ∧ (d ∈ s.agenda ∨
        s.tide < d.at_ ∧ d.at_ ≤ s.tide + 1170 ∧ (d.at_ + Config.refreshPhase (x.page / 128)) % 1170 = 0)) ∧
      P m l r (y.due - s.tide)
    let stopsWith (st d ncorr : Nat) : Prop := starts (fun m l r time =>
      m = 0 ∧ l = [] ∧ r = emptyRecord st d ncorr 0 x.page ∧ time = 0)
    let headed := if bank.fixedHeaders then 1 else 0
    (∃ t, exec .pageScanQueued s = .next t ∧ t.scans = s.scans.map (fun y =>
      if y.id = s.subject then { y with state := .queued, due := s.tide } else y) ∧ t.held = s.held) ∧
    (bank.offline = true → stopsWith 3 1 0) ∧
    (bank.offline = false →
      (2047 ∈ bank.badRows → stopsWith 2 0 0) ∧
      (2047 ∉ bank.badRows → (h.tag ≠ x.tag.toNat → stopsWith 3 2 headed) ∧
        (h.tag = x.tag.toNat → (h.fmt ≠ x.fmt → stopsWith 3 3 headed) ∧
          (h.fmt = x.fmt → (x.page % 128 ∈ bank.undefinedPages → stopsWith 2 0 headed) ∧
            (x.page % 128 ∉ bank.undefinedPages →
              (∀ o, s.badAt first (n * fmtToken x.fmt) = some o → starts (fun m l r time =>
                m = o / 64 + 1 ∧ l = fixed.filter (fun i => decide (i ≤ o / 64)) ∧
                  r = emptyRecord 2 0 l.length (o / fmtToken x.fmt) x.page ∧ time = scanTime m)) ∧
              (s.badAt first (n * fmtToken x.fmt) = none → starts (fun m l r time =>
                m = n * tokenLines x.fmt ∧ l = fixed ∧ time = scanTime m ∧
                  r = resultRecord x fixed.length n (s.scanTokens x h at_ n)))))))) ∧
    (∀ m l r, x.state = .scanning m l r → ∃ t y, exec .resultRecordLanding s = .next t ∧ y ∈ t.scans ∧
      y.id = x.id ∧ y.state = .writing r ∧ s.tide < y.due ∧ t.held = s.held) ∧
    (∀ r, x.state = .writing r →
      (∀ p, s.scanSlot x = some p → x.core < 256 → ∃ t y, exec .resultRecordLanding s = .next t ∧ t.held = s.held ∧
        y ∈ t.scans ∧ y.id = x.id ∧ y.state = .landing ∧ (t.core x.core).arriving =
          ((s.core x.core).bring x.id s.tide (((s.core x.core).ring x.ring).slotAddr p) r).arriving) ∧
      (s.scanSlot x = none →
        let waits := x.cancelled = false ∧ x.pos = none ∧ (s.core x.core).reservingFor x.query = true
        (waits → exec .resultRecordLanding s = .next (s.setScan { x with due := s.tide + 1 })) ∧
        (¬ waits → exec .resultRecordLanding s = .next (s.dropScan x.id)))) ∧
    (x.state = .landing → x.core < 256 → ∃ t, exec .resultRecordLanding s = .next t ∧ t.held = s.held ∧
      t.scans = s.scans.filter (fun y => y.id != x.id) ∧
      (∀ p, s.scanSlot x = some p → x.ring < 16 →
        (t.core x.core).ring x.ring = ((s.core x.core).ring x.ring).publish p) ∧
      (s.scanSlot x = none → (t.core x.core).arriving = (s.core x.core).arriving.filter (fun a => a.id != x.id)))

/-- R214, R220, R235: a refresh of a bank pauses the scans in it for at most 280 ns. A bank is refreshed every 1.95 µs,
1170 tc: at the tides that a constant of the bank and 1170 give, so that the next refresh after one comes exactly 1170 tc
later, and a scan that starts after none was looked for meets the next tide of the same row (ScanStepsComplete). With no
scan in the bank a refresh changes nothing. A remap brings an offline bank back, with its failing rows on spare rows, and
the pages of rows that could not be copied undefined; one with too few spare rows, or of a bank that is not offline,
changes nothing. -/
def Obligations.BankStepsComplete : Prop :=
  ∀ (s : State) (b : Nat),
    (s.scanningIn b = false → exec (.bankRefresh b) s = .next s) ∧
    (s.scanningIn b = true → ∃ t pause d, exec (.bankRefresh b) s = .next t ∧ pause ≤ 168 ∧ t.held = s.held ∧
      t.cores = s.cores ∧ (t.scans.map PageScan.due = s.scans.map (fun y => match y.state with
        | .scanning .. => if y.page / 128 = b then y.due + pause else y.due
        | _ => y.due)) ∧ t.scans.map PageScan.state = s.scans.map PageScan.state ∧
      t.agenda = s.agenda ++ [d] ∧ d.ev = .bankRefresh b ∧
      (d.at_ + Config.refreshPhase b) % 1170 = 0 ∧ s.tide < d.at_ ∧ d.at_ ≤ s.tide + 1170 ∧
      ((s.tide + Config.refreshPhase b) % 1170 = 0 → d.at_ = s.tide + 1170)) ∧
    (∀ rows lost : List Nat,
      ((s.bank b).offline = false ∨ 15 < (s.bank b).spares + rows.length →
        exec (.bankRemapComplete b rows lost) s = .next s) ∧
      ((s.bank b).offline = true → (s.bank b).spares + rows.length ≤ 15 →
        ∃ t, exec (.bankRemapComplete b rows lost) s = .next t ∧ (t.bank b).offline = false ∧
          (t.bank b).spares = (s.bank b).spares + rows.length ∧ t.cores = s.cores ∧ t.cohort = s.cohort ∧
          (lost = [] → t.device = s.device ∧ t.headers = s.headers) ∧
          (∀ r ∈ lost, r ≠ 2047 → r / 16 ∈ (t.bank b).undefinedPages) ∧
          ∀ r ∈ rows, r ≠ 2047 → ∀ l ∈ s.rowLines b r, l ∉ t.poison))

/-! ### The breakwater merge and the optimiser -/

/-- R237 to R242, R251: a group opens where a slot and staging are free, with its contributors Empty and its staging
zero; an equal descriptor of an open group gives OK, a different one FAILED_FAULT, no room FULL, and a request for a
group that applies or completes is held. A request of a contributor to no group, or to one that is not open, raises
0x18; one to an open group has the effect of R242's table, or is a violation. A group past its watchdog expires. -/
def Obligations.GroupRequestsComplete : Prop :=
  ∀ s : State,
    (∀ m : Msg, s.msg s.subject = some m →
      let gone (t : State) : Prop := t.msgs = s.msgs.filter (fun x => x.id != m.id) ∧ t.held = s.held
      let request (i : Instr) (gid c tile : Nat) (P : Contributor → Contributor → Group → State → Prop) : Prop :=
        let late (kind : Nat) : Prop := ∃ t, exec i s = .next t ∧ gone t ∧ t.groups = s.groups ∧
          (m.core ≠ none → s.answers t m none (some (0x18, bwInfo kind c gid)))
        (s.groupAt m.part m.stack gid = none → late 1) ∧
        (∀ g, s.groupAt m.part m.stack gid = some g → (g.state ≠ .open_ → late 2) ∧
          (g.state = .open_ → g.conts.length = g.ncont + 1 → ∃ t y, exec i s = .next t ∧
            s.contributes t m g y c ∧
            ((g.ncont < c ∨ g.tiles < tile) → y.viol = g.viol ||| 2 ^ c ∧
              (c ≤ g.ncont → (y.cont c).state = .failed)) ∧
            (c ≤ g.ncont → tile ≤ g.tiles → P (g.cont c) (y.cont c) y t ∧
              (y.viol = g.viol ∨ (y.viol = g.viol ||| 2 ^ c ∧ (y.cont c).state = .failed)))))
      let same (x : Contributor) (run : W64) : Prop := x.state = .empty ∨ (x.state = .staging ∧ x.run = some run)
      let wrong (c : Nat) (x z : Contributor) (y : Group) : Prop :=
        z = { x with state := .failed } ∧ y.viol.testBit c = true
      (∀ desc dst compl die, m.kind = .groupOpen desc dst compl die →
        let gid := wbits (desc.getD 0 0) 31 20
        let n := wbits (desc.getD 0 0) 19 16
        let reports (t : State) (code : Nat) : Prop := gone t ∧
          (m.core ≠ none → m.reg ≠ 0 → s.answers t m (some (bwoWord code m.stack)) none)
        (∀ g, s.groupAt m.part m.stack gid = some g →
          (g.state ≠ .open_ → ∃ t, exec .groupOpen s = .next t ∧ t.held = s.held ∧ t.groups = s.groups ∧
            t.acks = s.acks ∧ ∃ y ∈ t.msgs, y.id = m.id ∧ y.accepted = true) ∧
          (g.state = .open_ → ∃ t, exec .groupOpen s = .next t ∧ t.groups = s.groups ∧
            reports t (if g.desc = desc then 0x00 else 0x03))) ∧
        (s.groupAt m.part m.stack gid = none →
          (s.groupRoom m.stack desc = true → ∃ t g, exec .groupOpen s = .next t ∧ reports t 0x00 ∧
            t.groups = s.groups ++ [g] ∧ g.part = m.part ∧ g.stack = m.stack ∧ g.desc = desc ∧ g.dst = dst ∧
            g.compl = compl ∧ g.state = .open_ ∧ g.viol = 0 ∧ g.last = s.tide ∧ g.conts.length = n + 1 ∧
            ∀ i, (g.cont i).state = .empty ∧ (g.cont i).stage = []) ∧
          (s.groupRoom m.stack desc = false → ∃ t, exec .groupOpen s = .next t ∧ reports t 0x06 ∧
            t.groups = s.groups))) ∧
      (∀ gid c tile data run, m.kind = .bws gid c tile data run → data.length = 2048 →
        request .bwsAccept gid c tile (fun x z y _ =>
          (same x run → z.state = .staging ∧ z.run = some run ∧
            (∀ e, e < 2048 → Sparse.get 0 z.stage (2048 * tile + e) = BitVec.ofNat 32 (fadd
              (Sparse.get 0 x.stage (2048 * tile + e)).toNat (data.getD e 0).toNat)) ∧
            ∀ e, (e < 2048 * tile ∨ 2048 * tile + 2048 ≤ e) → Sparse.get 0 z.stage e = Sparse.get 0 x.stage e) ∧
          (¬ same x run → x.state ≠ .failed → wrong c x z y) ∧ (x.state = .failed → z = x))) ∧
      (∀ gid c run, m.kind = .bwc gid c run →
        request .bwcAccept gid c 0 (fun x z y t =>
          (same x run → z = { x with state := .measuring, run := some run } ∧
            ∃ d ∈ t.agenda, d.ev = .phaseOne y.id c ∧ s.tide < d.at_) ∧
          (¬ same x run → x.state ≠ .failed → wrong c x z y) ∧ (x.state = .failed → z = x))) ∧
      (∀ gid c run, m.kind = .bwa gid c run →
        request .bwaAccept gid c 0 (fun x z _ _ => z =
          (match x.state with
            | .empty => x
            | .staging => {}
            | .measuring => { x with undo := true }
            | .committed => {}
            | .failed => x)))) ∧
    (∀ g, s.group s.subject = some g →
      let late := g.state = .open_ ∧ g.last + (s.part g.part).watchdog < s.tide
      (late → ∃ t y d, exec .groupExpiry s = .next t ∧ t.held = s.held ∧ t.group g.id = some y ∧
        y.state = .completing ∧ y.expired = true ∧ y.conts = g.conts ∧ y.viol = g.viol ∧ d ∈ t.agenda ∧
        d.ev = .groupCompletion ∧ d.subject = g.id ∧ s.tide < d.at_) ∧
      (¬ late → exec .groupExpiry s = .next s))

/-- R243 to R248, R252 to R255: phase one gives a contributor its norm and its scale, or its mark; phase two adds
the scaled contributions to the lines of the total in order, in ascending id, and leaves a line that a staging read
spoils; a group that completes writes its record with the STATUS of R247, signals its flag if its core runs a gang of the
partition, sets LAST, and is Free once record and flag are written. An optimiser step waits for the group that it found;
it writes nothing after a group that was neither OK nor CORRECTED; else the elements of its arrays take the values of
R254 line by line, and after the last its record is written. The model's choices (log 39): how many lines are moved at a
time (Config.linesMoved), and that a group is freed after its flag. -/
def Obligations.GroupPhasesComplete : Prop :=
  ∀ s : State,
    (∀ n g c, s.group n = some g → g.state = .open_ → c < g.conts.length → (g.cont c).state = .measuring →
      let x := g.cont c
      let norm := normOf g.tiles (x.stage.read 0 0 g.elements)
      let done (z : Contributor → Prop) : Prop := ∃ t y, exec (.phaseOne n c) s = .next t ∧ t.held = s.held ∧
        t.group n = some y ∧ z (y.cont c) ∧ (∀ i, i ≠ c → y.cont i = g.cont i) ∧
        y.ncorr = g.ncorr + x.fixed.length ∧ y.viol = g.viol ∧
        y.state = (if y.settled then (if y.applies then .applying else .completing) else .open_)
      (x.undo = true → done (fun z => z = {})) ∧
      (x.undo = false → x.bad ≠ [] → done (fun z => z.state = .committed ∧ z.uncorr = true ∧ z.sigma = 0)) ∧
      (x.undo = false → x.bad = [] → done (fun z => z.state = .committed ∧ z.uncorr = x.uncorr ∧
        z.norm = BitVec.ofNat 32 norm ∧ z.stage = x.stage ∧
        ((v32 norm).isZero = true → z.sigma = 0x3F800000 ∧ z.range = false) ∧
        ((v32 norm).isZero = false → ((v32 norm).isNaN = true ∨ v32 norm = .inf false) →
          z.sigma = BitVec.ofNat 32 (canonNaN tFP32) ∧ z.range = true) ∧
        ((v32 norm).isZero = false → (v32 norm).isNaN = false → v32 norm ≠ .inf false → z.range = false ∧
          z.sigma = BitVec.ofNat 32 (if (v32 (fdiv g.limit norm)).lt (v32 0x3F800000) then fdiv g.limit norm
            else 0x3F800000))))) ∧
    (∀ g, s.group s.subject = some g → g.state = .applying → g.line ≤ g.elements / 16 →
      (∀ l, l < g.elements / 16 → s.badLine ((g.dst + 64 * l) / 64) = false) →
      (∀ l, l < g.elements / 16 → s.scanningIn (s.bankOf (g.dst + 64 * l)) = false) →
      let spoilt (l : Nat) : Bool := g.conts.any (fun x => x.bad.contains l)
      let upto := Nat.min (g.elements / 16) (g.line + Config.linesMoved s.fresh + 1)
      let inside (l : Nat) : Prop := g.line ≤ l ∧ l < upto
      ∃ t y, exec .phaseTwo s = .next t ∧ t.group g.id = some y ∧ y.line = upto ∧ y.conts = g.conts ∧
        (upto < g.elements / 16 → y.state = .applying ∧ ∃ d ∈ t.agenda, d.ev = .phaseTwo ∧ d.subject = g.id ∧
          s.tide < d.at_) ∧
        (upto = g.elements / 16 → y.state = .completing ∧ y.applied = true) ∧
        y.errlines = g.errlines + (List.range' g.line (upto - g.line)).countP spoilt ∧
        t.cores = s.cores ∧ t.cohort = s.cohort ∧ t.headers = s.headers ∧
        (∀ l, inside l → t.device.read (g.dst + 64 * l) 64 =
          if spoilt l then s.device.read (g.dst + 64 * l) 64
          else (g.applyLine l (wordsOf 4 16 (s.device.read (g.dst + 64 * l) 64))).flatMap (bytesOfNat 4)) ∧
        ∀ a, (a < g.dst + 64 * g.line ∨ g.dst + 64 * upto ≤ a) → t.device.get a = s.device.get a) ∧
    (∀ g, s.group s.subject = some g → g.state = .completing →
      let fv := wbit (g.w 3) 63
      let record := g.record (fv && (s.flagCore g).isNone)
      (g.written = true → exec .groupCompletion s = .next (s.freeGroup g.id)) ∧
      (g.written = false → s.targetBusy g.compl 192 = true →
        exec .groupCompletion s = .next (s.due (s.tide + 1) .groupCompletion g.id)) ∧
      (g.written = false → s.targetBusy g.compl 192 = false → ∃ t, exec .groupCompletion s = .next t ∧
        t.cores.map Core.held = s.cores.map Core.held ∧ t.headers = s.headers ∧
        Sparse.get 0xFF t.lastStatus (lastKey g.stack g.part g.gid) = BitVec.ofNat 8 g.status ∧
        (g.aborted = true → g.status = 7) ∧
        (g.aborted = false → (g.viol ≠ 0 ∨ g.expired = true) → g.status = 3) ∧
        (g.aborted = false → g.viol = 0 → g.expired = false →
          (g.conts.any (fun x => x.range) = true → g.status = 5) ∧
          (g.conts.any (fun x => x.range) = false →
            ((g.conts.any (fun x => x.uncorr) = true ∨ g.errlines ≠ 0) → g.status = 2) ∧
            (g.conts.any (fun x => x.uncorr) = false → g.errlines = 0 →
              g.status = if g.ncorr = 0 then 0 else 1))) ∧
        (∀ a, g.compl = .device a → t.device.read a record.length = record ∧
          ∀ b, (b < a ∨ a + record.length ≤ b) → t.device.get b = s.device.get b) ∧
        (∀ c, s.flagCore g = some c → fv = true → ∃ y f d, t.group g.id = some y ∧ y.written = true ∧
          y.state = .completing ∧ f ∈ t.flits ∧ f.kind = .signal c (wbits (g.w 3) 4 0) g.part none ∧
          s.tide < f.due ∧ d ∈ t.agenda ∧ d.ev = .groupCompletion ∧ d.subject = g.id ∧ f.due < d.at_) ∧
        ((fv = false ∨ s.flagCore g = none) → t.group g.id = none))) ∧
    (∀ m ws compl die w g mo v, s.msg s.subject = some m → m.kind = .opts ws [w, g, mo, v] compl die →
      let n := wbits (ws.getD 0 0) 18 0 + 1
      let alone := wbit (ws.getD 0 0) 51
      let r := m.run.getD { last := s.stepLast m ws }
      let goes := m.accepted = true ∨ s.stepGroup m ws = none
      let busy := s.targetBusy compl 32
      let same (t : State) : Prop := t.cores.map Core.held = s.cores.map Core.held ∧ t.cohort = s.cohort
      let ended (t : State) : Prop := t.msgs = s.msgs.filter (fun x => x.id != m.id)
      let far (a b : Nat) : Prop := a + 4 * n ≤ b ∨ b + 4 * n ≤ a
      let el (u : State) (a e : Nat) : Nat := natOfBytes (u.device.read (a + 4 * e) 4)
      (∀ x, m.accepted = false → s.stepGroup m ws = some x →
        exec .optsStep s = .next (s.setMsg { m with accepted := true, group := some x })) ∧
      (goes → alone = false → 2 ≤ r.last → busy = false → ∀ a, compl = .device a → ∃ t, exec .optsStep s = .next t ∧
        ended t ∧ same t ∧ t.device.read a 32 = optRecord 0x07 0 0 r.last ∧
        ∀ b, (b < a ∨ a + 32 ≤ b) → t.device.get b = s.device.get b) ∧
      (goes → (alone = true ∨ r.last < 2) → r.line ≤ optCount ws →
        (∀ a ∈ [w, g, mo, v], a % 64 = 0 ∧ ∀ e, e < n → s.badLine ((a + 4 * e) / 64) = false ∧
          s.scanningIn (s.bankOf (a + 4 * e)) = false) →
        far w g → far w mo → far w v → far g mo → far g v → far mo v →
        let upto := Nat.min (optCount ws) (r.line + Config.linesMoved s.fresh + 1)
        ∃ t q, exec .optsStep s = .next t ∧ same t ∧ q.line = upto ∧ q.last = r.last ∧ q.bad = r.bad ∧
          ((upto < optCount ws ∨ busy = true) → ∃ y ∈ t.msgs, y.id = m.id ∧ y.accepted = true ∧ y.run = some q ∧
            s.tide < y.ready) ∧
          (upto = optCount ws → busy = false → ended t ∧ ∀ a, compl = .device a → t.device.read a 32 =
            optRecord (if q.bad ≠ 0 then 2 else if q.fixed = 0 then 0 else 1) q.fixed q.bad q.last) ∧
          (compl.dpa = none → ∀ e, e < n →
            let new := optElement ws (el s w e) (el s g e) (el s mo e) (el s v e)
            if r.line ≤ e / 16 ∧ e / 16 < upto then
              el t w e = new.1 ∧ el t g e = new.2.1 ∧ el t mo e = new.2.2.1 ∧ el t v e = new.2.2.2
            else ∀ a ∈ [w, g, mo, v], el t a e = el s a e) ∧
          (compl.dpa = none → ∀ b, (∀ a ∈ [w, g, mo, v], b < a ∨ a + 4 * n ≤ b) →
            t.device.get b = s.device.get b)))

/-! ### Engine commands and chains -/

/-- R157, R162, R326 to R330: a command that starts takes the slot of its RROLE and begins to move, a consumer once
PUB has passed its slot; one whose RROLE names a disabled ring, or a ring configured anew, fails with 0x15. Each element
is read, then written, in order, once its banks are free; a copy, a convert and a fill store its bytes. A command whose
move is over publishes or releases its slot, signals its flags one tc later, writes its record and moves its chain on; one
whose move or record fails has a record with FAILED_FAULT or raises the fault; one cut short writes its record. A chain
takes its next entry, or repeats the one it has, as a command with SRC and DST moved on, and a NEXT of 0 ends it. That flags
are signalled one tc after the retirement, that a ring configured anew fails a command with operation 6, what a record that
cannot be written does, and that elements and lines take the bank cycles that are free in the order of arrival, are the
model's choices (log 26). -/
def Obligations.EngineCommandsComplete : Prop :=
  ∀ (s : State) (c : Nat), c < 256 →
    let k := s.core c
    (∀ id x, k.command id = some x →
      let ws := x.words
      let n := cmdRing ws
      let r := k.ring n
      let role := cmdRole ws
      let start := Instr.engineCommandStart c id
      let retire := Instr.engineCommandRetire c id
      let free := s.recordBusy c x = false
      let fails (i : Instr) (code : Nat) (info : W64) : Prop := ∃ t, exec i s = .next t ∧ s.spoils t c x code info
      let moves (t : State) (pos : W32) : Prop := ∃ y e d, (t.core c).command id = some y ∧
        y = { x with state := .moving s.tide e, pos := pos, moves := { since := d } } ∧ s.tide < d ∧
        (e = none ∨ e = some d) ∧ (role = 0 → (e = none ↔ s.overEthernet c x = true))
      let starts (P : State → Prop) : Prop := ∃ t, exec start s = .next t ∧ t.held = s.held ∧ P t
      (s.recordBusy c x = true → (k.doomed x = true ∨ (role ≠ 0 ∧ r.enabled = false)) → exec start s = .next s) ∧
      (free → (k.doomed x = true ∨ (role ≠ 0 ∧ r.enabled = false)) → fails start 0x15 (ringInfo n 6)) ∧
      (k.doomed x = false → (role = 0 ∨ r.enabled = true) →
        (x.state = .taken → starts (fun t => moves t x.pos ∧ (t.core c).rings = k.rings)) ∧
        (x.state ≠ .taken → role ≠ 1 → role ≠ 2 → starts (fun t => moves t x.pos ∧ (t.core c).rings = k.rings)) ∧
        (x.state ≠ .taken → role = 1 →
          starts (fun t => moves t r.rsv ∧ (t.core c).ring n = { r with rsv := r.rsv + 1 })) ∧
        (x.state ≠ .taken → role = 2 → starts (fun t => (t.core c).ring n = { r with con := r.con + 1 } ∧
          (reaches r.pub (r.con + 1) = true → moves t r.con) ∧
          (reaches r.pub (r.con + 1) = false → (t.core c).command id =
            some { x with state := .taken, pos := r.con })))) ∧
      (∀ (es : List (Int × Int)) (g : Grants) (m : Nat), x.isMoving = true →
        (es[x.moves.next]? = none → s.moveRun c false es g x (m + 1) = (x.stopped none, g, s)) ∧
        (∀ e, es[x.moves.next]? = some e →
          let from_ := s.reachEnd c x (x.source e.1) x.srcBytes .command
          let held := s.endHold c x
          let puts (z : Command × State) (bs : List Byte) : Prop := ∀ b,
            z.2.reachEnd c z.1 (x.target e.2) x.dstBytes .commandStore = .ok (.own (.scratch b)) →
            bs.length = x.dstBytes → ∃ y h t, s.moveRun c true es g x 2 = (y, h, t) ∧ y.moves.next = x.moves.next + 1 ∧
              y.moves.bytes = none ∧
              y.isMoving = true ∧ (t.core c).scratch.read b bs.length = bs ∧
              (∀ i, (i < b ∨ b + bs.length ≤ i) → (t.core c).scratch.get i = k.scratch.get i) ∧
              (t.core c).sreg = k.sreg ∧ (t.core c).tiles = k.tiles ∧ t.cohort = s.cohort ∧ t.device = s.device
          x.moves.bytes = none →
          (cmdKind ws ≠ 3 → s.elementFree c false g x false from_ = false → s.moveRun c false es g x (m + 1) = (x, g, s)) ∧
          (cmdKind ws ≠ 3 → ∀ a, from_ = .ok (.own (.scratch a)) →
            let bs := k.scratch.read a x.srcBytes
            (cmdKind ws ≠ 2 → puts held bs) ∧ (cmdKind ws = 2 → puts held (convertElement ws k.sr x.moves.next bs))) ∧
          (cmdKind ws = 3 → puts (x, s) (bytesOfNat x.dstBytes (cmdSrc ws).toNat)) ∧
          (cmdKind ws ≠ 3 → ∀ f, from_ = .error f →
            s.moveRun c true es g x 1 = (x.stopped (some f), g, s.countEnd c (x.source e.1) f.1)))) ∧
      (x.elements ≤ x.moves.next + 1 → ∀ v m, x.hold = some (v, m) → s.endHold c x =
        ({ x with hold := none }, s.modCore c (fun k => k.unholdValue v m))) ∧
      (s.recordBusy c x = true → exec retire s = .next s) ∧
      (∀ m status, x.moves.limit = some (m, status) → free → ∃ t, exec retire s = .next t ∧
        (t.core c).command id = none ∧ (t.core c).rings = k.rings ∧ (t.core c).chains = k.chains ∧
        ∀ va a, cmdCompl ws ≠ 0 → s.reach c x.pages (cmdCompl ws) 32 .store = .ok (.pieces [⟨va, .device a, 32⟩]) →
          t.device.read a 32 = recordBytes status 0 0 0 (ws.getD 10 0) x.began s.tide) ∧
      (x.moves.limit = none → ∀ since code info, x.state = .moved since (some (code, info)) → free →
        fails retire code info) ∧
      (x.moves.limit = none → ∀ since, x.state = .moved since none → k.doomed x = true → free →
        fails retire 0x15 (ringInfo n 6)) ∧
      (x.moves.limit = none → ∀ since, x.state = .moved since none → k.doomed x = false → free →
        let after := if role = 1 then r.publish x.pos else if role = 2 then r.release x.pos else r
        let u : State := if role = 1 ∨ role = 2 then s.modCore c (fun k => k.setRing n after) else s
        let fixed := x.moves.fixed
        let record := recordBytes (if fixed = 0 then 0 else 1) 0 fixed 0 (ws.getD 10 0) x.began s.tide
        let dest := u.reach c x.pages (cmdCompl ws) 32 .store
        let gone (t : State) : Prop := (t.core c).command id = none ∧ (t.core c).ring n = after ∧
          ∀ f, f < 32 → wbit (ws.getD 8 0) (32 + f) = true → ∃ p ∈ (t.core c).inflight, p.at_ = s.tide + 1 ∧
            p.op = .signal f
        let done (P : State → Prop) : Prop := ∃ t, exec retire s = .next t ∧ gone t ∧ P t ∧
          ∀ j, j < 8 → x.slot = some j → ∃ d, s.tide < d ∧ (t.core c).chain j = (k.chain j).retired ws d
        (cmdCompl ws = 0 → done (fun t => t.held = s.held ∧ t.host = s.host)) ∧
        (cmdCompl ws ≠ 0 →
          (∀ va a, dest = .ok (.pieces [⟨va, .device a, 32⟩]) → done (fun t => t.device.read a 32 = record)) ∧
          (∀ b, dest = .ok (.own (.scratch b)) → done (fun t => (t.core c).scratch.read b 32 = record)) ∧
          (∀ code info, dest = .error (code, info) → ∃ t, exec retire s = .next t ∧ gone t ∧
            s.records t c 7 false code info ∧ ∀ j, j < 8 → x.slot = some j →
              ((t.core c).chain j).err = true ∧ ((t.core c).chain j).run = false)))) ∧
    (∀ j, j < 8 →
      let ch := k.chain j
      let fetch := Instr.chainEntryFetch c j
      let stops (t : State) : Prop := exec fetch s = .next t ∧ ((t.core c).chain j).err = true ∧
        ((t.core c).chain j).run = false
      let ends (code : Nat) (info : W64) : Prop := ∃ t, stops t ∧ s.records t c 7 false code info
      let takes (ws : List W64) : Prop :=
        let xs := advanced ws ch.rep
        let spoilt (code : Nat) (info : W64) : Prop :=
          (cmdCompl xs = 0 → ∃ t, stops t ∧ s.records t c 7 false code info) ∧
          (cmdCompl xs ≠ 0 → ∃ t, stops t ∨ exec fetch s = .next t ∧ ∃ y, (t.core c).cmds = k.cmds ++ [y] ∧
            y.slot = some j ∧ y.words = xs ∧ y.state = .moved 0 (some (code, info)))
        (∀ code info, firstFault (commandChecks true ws) = some (code, info) → spoilt code info) ∧
        (firstFault (commandChecks true ws) = none →
          (∀ code info, k.sourceValue xs = .error (code, info) → spoilt code info) ∧
          ∀ v, k.sourceValue xs = .ok v → (∀ code info, s.baseFault c xs = some (code, info) → spoilt code info) ∧
            (s.baseFault c xs = none → ∃ t y, exec fetch s = .next t ∧ (t.core c).cmds = k.cmds ++ [y] ∧
              y.slot = some j ∧ y.words = xs ∧ y.state = .posted ∧ y.hold = v ∧ s.tide < y.ready ∧
              (t.core c).chain j = { ch with entry := ws } ∧ t.held = s.held))
      let reads := ch.rep = 0 ∨ ch.entry = []
      (¬ reads → takes ch.entry) ∧
      (reads → ch.next = 0 → ∃ t, exec fetch s = .next t ∧ (t.core c).chain j = { ch with run := false } ∧
        t.held = s.held) ∧
      (reads → ch.next ≠ 0 →
        (∀ code info, deref k ch.next .ownOrGlobal (fun x => x % 128 == 0) = .error (code, info) → ends code info) ∧
        (∀ d, deref k ch.next .ownOrGlobal (fun x => x % 128 == 0) = .ok d →
          (∀ code info, s.reach c [] ch.next 128 .command = .error (code, info) → ends code info) ∧
          ∀ a, s.reach c [] ch.next 128 .command = .ok (.own (.scratch a)) →
            takes (words64 16 (k.scratch.read a 128))))) ∧
    (∀ a : Arriving,
      let t := s.lineTurn c a
      let turn := banksFree k.bankUse [a.off / 64 % 32] = true ∧ a ∈ k.arriving
      (¬ turn → t = s) ∧
      (turn → (t.core c).scratch = k.scratch.write a.off a.bytes ∧ (t.core c).arriving = k.arriving.erase a ∧
        banksFree (t.core c).bankUse [a.off / 64 % 32] = false ∧ ∀ d, d ≠ c → t.core d = s.core d))

/-! ### Arrivals -/

/-- R28, R157, R419, R421, R430: the head of a SEND tile reserves a slot of k15, waits for one, or raises 0x15; two
flits a tc go on to the slot, which is published once the last of them is written; a slot that no longer stands
takes the tile with it once all of it has come. A signal that
arrives where a gang of its partition runs advances its flag and brings its release; another is dropped and counted.
A barrier's arrival is told to its receiver. That a tile which would raise 0x15 waits while its core is frozen or in a
handler is the model's choice (log 22). -/
def Obligations.ArrivalsComplete : Prop :=
  ∀ s : State,
    (∀ x : Inbound, s.inbound.find? (fun y => y.send == s.subject) = some x → x.dst < 256 →
      let k := s.core x.dst
      let r := k.ring 15
      let dropped (t : State) : Prop := t.held = s.held ∧ t.inbound = s.inbound.filter (fun y => y.send != x.send)
      let arrive := exec .sendArrival s
      (x.slot = none →
        (∀ op, r.inboxFault x.image.length = some op →
          ((k.mode = .frozen ∨ k.mode = .handler) → arrive = .next s) ∧
          (k.mode ≠ .frozen → k.mode ≠ .handler →
            ∃ t, arrive = .next t ∧ dropped t ∧ s.records t x.dst 6 false 0x15 (ringInfo 15 op))) ∧
        (r.inboxFault x.image.length = none → r.slots ≤ (r.rsv - r.rel).toNat → arrive = .next s) ∧
        (r.inboxFault x.image.length = none → (r.rsv - r.rel).toNat < r.slots → ∃ t, arrive = .next t ∧
          (t.core x.dst).ring 15 = { r with rsv := r.rsv + 1 } ∧ t.held = s.held ∧
          ∃ y ∈ t.inbound, y.send = x.send ∧ y.slot = some (r.rsv, r.gen) ∧ y.image = x.image)) ∧
      (x.slot.isSome = true → s.inboxStands x = none → (x.left ≠ 0 → arrive = .next s) ∧
        (x.left = 0 → ∃ t, arrive = .next t ∧ dropped t ∧ (t.core x.dst).rings = k.rings ∧
          (t.core x.dst).arriving = k.arriving.filter (fun a => a.id != x.send))) ∧
      (∀ p, s.inboxStands x = some p →
        (s.inboxWritten x = true → ∃ t, arrive = .next t ∧ dropped t ∧ (t.core x.dst).ring 15 = r.publish p ∧
          ∀ n, n < 15 → (t.core x.dst).ring n = k.ring n) ∧
        (s.inboxWritten x = false → arrive = .next s) ∧
        (let n := Nat.min x.arrived (x.passed + 2)
         let t := s.passFlits x
         t.held = s.held ∧ (t.core x.dst).arriving = (k.bring x.send s.tide (r.slotAddr p + 256 * x.passed)
            ((x.image.take (256 * n)).drop (256 * x.passed))).arriving ∧
          ∃ y ∈ t.inbound, y.send = x.send ∧ y.passed = n))) ∧
    (∀ (c f part : Nat) (rel : Option Cover), c < 256 → f < 32 → part < 32 →
      let k := s.core c
      let runs := k.task.isSome = true ∧ k.part = part ∧ k.mode ≠ .idle
      let signalled (t : State) : Prop :=
        (runs → (t.core c).flag f = k.flag f + 1 ∧ (∀ n, n < 32 → n ≠ f → (t.core c).flag n = k.flag n) ∧
          t.parts = s.parts ∧ (t.core c).sreg = k.sreg ∧ ∀ v, rel = some v → v ∈ t.covers) ∧
        (¬ runs → t.cores = s.cores ∧ (t.part part).perr = saturate (s.part part).perr)
      (∀ x : Flit, s.flits.find? (fun y => y.id == s.subject) = some x → x.kind = .signal c f part rel →
        ∃ t, exec .flagSignalArrival s = .next t ∧ t.flits = s.flits.filter (fun y => y.id != x.id) ∧
          signalled t) ∧
      (∀ b q, s.flits.find? (fun y => y.id == s.subject) = none → b < 256 → rel = none →
        (List.range 256).find? (fun d => ((s.core d).req s.subject).isSome) = some b →
        (s.core b).req s.subject = some q → q.op = .signal c f → (s.core b).part = part → q.scope < 3 →
        ∃ t, exec .flagSignalArrival s = .next t ∧ (t.core b).req s.subject = none ∧
          (runs → (t.core c).flag f = k.flag f + 1) ∧
          (¬ runs → (t.core c).flag f = k.flag f ∧ (t.part part).perr = saturate (s.part part).perr))) ∧
    (∀ (x : Flit) (src dst : Nat), s.flits.find? (fun y => y.id == s.subject) = some x → x.kind = .barrier src dst →
      ∃ t, exec .barrierArrival s = .next t ∧ t.flits = s.flits.filter (fun y => y.id != x.id) ∧ t.held = s.held ∧
        t.bars = s.bars.map (fun b => if b.core = src then { b with told := b.told ++ [dst] } else b))

/-! ### Operations perform -/

/-- R126, R185, R303, R321, R344, R346, R382, R387, R402, R410, R421, R423: what an operation in flight does at its tide,
but for those of the matrix array (MatrixOperationsPerform) and a register write (RegisterWritePerforms). A load gives its
register the bytes that were in memory before the tide; a store changes its bytes alone; a write of a tile, an image's
bytes, a row or a triple read from memory change that tile alone, with D 1 and Z 0; TZERO and a cursor move change that
alone; a line of a value or of a tile that is read is written one tc later; a read through a handle that is no longer valid
raises 0x13; an atomic gives the old unit and stores the new one, and a gate's attempt tells its gate; a CSRW writes the
writable fields of its register; a CSRR of KSTAT gives the counts before the tide; FMTW adds its word to the format queue,
or raises 0x0A where that is full; a ring operation moves its count, or raises 0x15; a segment is installed or unlocked; a
signal moves its flag on. That a ring operation's 0x15 is raised at its perform, imprecise and with its word's engine, is
the model's choice (log 19). -/
def Obligations.OperationsPerform : Prop :=
  ∀ (o s : State) (c : Nat) (p : Perform), c < 256 →
    let x := s.core c
    let t := o.performOne c p s
    let y := t.core c
    let rest := (∀ d, d ≠ c → t.core d = s.core d) ∧ t.device = s.device ∧ t.host = s.host ∧ t.headers = s.headers
    (∀ a bs, p.op = .store (.scratch a) bs → y.scratch.read a bs.length = bs ∧
      (∀ b, (b < a ∨ a + bs.length ≤ b) → y.scratch.get b = x.scratch.get b) ∧
      y.held = { x.held with scratch := y.scratch } ∧ t.cohort = s.cohort ∧ rest) ∧
    (∀ a bs, p.op = .store (.cohort a) bs → t.cohort.read a bs.length = bs ∧
      (∀ b, (b < a ∨ a + bs.length ≤ b) → t.cohort.get b = s.cohort.get b) ∧ t.cores = s.cores ∧ rest) ∧
    (∀ r at_ n sx, p.op = .load r at_ n sx → r < 32 → (r ≠ 0 → y.reg r = loaded sx (o.bytesAt c at_ n)) ∧
      (∀ q, q < 32 → q ≠ r → y.reg q = x.reg q) ∧ y.held = { x.held with sreg := y.sreg } ∧
      t.cohort = s.cohort ∧ rest) ∧
    (∀ n data side fl, p.op = .tileWrite n data side fl → n < 16 → (x.tile n).a = false →
      y.tile n = ((x.tile n).patched data side).touched ∧ (∀ m, m ≠ n → y.tile m = x.tile m) ∧
      y.fflags = raiseFlags x.fflags p.eng fl ∧ y.sreg = x.sreg ∧ y.scratch = x.scratch ∧ y.acc = x.acc ∧
      t.cohort = s.cohort ∧ rest) ∧
    (∀ n w d cur, p.op = .tileCfg n w d cur → n < 16 → (y.tile n).shape = w ∧ (y.tile n).c = true ∧
      (y.tile n).d = d ∧ (y.tile n).z = !d ∧ (y.tile n).a = false ∧ (y.tile n).cur = cur ∧
      (d = true → (y.tile n).data = (x.tile n).data ∧ (y.tile n).side = (x.tile n).side) ∧
      (∀ m, m ≠ n → y.tile m = x.tile m) ∧ y.scratch = x.scratch ∧ rest) ∧
    (∀ r a op ptr, p.op = .rmw r (.cohort a) op ptr {} → r < 32 → op.attempt = false →
      let z := op.apply (s.cohort.read a op.size)
      (r ≠ 0 → y.reg r = z.value) ∧ (∀ q, q < 32 → q ≠ r → y.reg q = x.reg q) ∧ y.scratch = x.scratch ∧
      t.device = s.device ∧
      (∀ bs, z.new = some bs → t.cohort.read a bs.length = bs ∧
        ∀ b, (b < a ∨ a + bs.length ≤ b) → t.cohort.get b = s.cohort.get b) ∧
      (z.new = none → t.cohort = s.cohort)) ∧
    (∀ n v, p.op = .csr n v → rest ∧ y.sreg = x.sreg ∧ y.scratch = x.scratch ∧
      (∀ m, m ∈ [0x18, 0x19, 0x1A, 0x20, 0x21, 0x22, 0x23, 0x24] → ∀ tide, y.csrRead tide m =
        if m = n then (if n = 0x20 then x.csrRead tide n &&& ~~~ v else v &&& csrMask n) else x.csrRead tide m) ∧
      (n = 0x1B → y.vheap = v &&& csrMask n ∧ y.blocks = [] ∧ y.reuse = none) ∧
      (∀ j, j < 16 → n = 0x80 + j → (y.ring j).cfg = v &&& csrMask n ∧
        (y.ring j).gen = (x.ring j).gen + (if wbit v 16 then 0 else 1) ∧
        (y.ring j).rsv = 0 ∧ (y.ring j).pub = 0 ∧ (y.ring j).con = 0 ∧ (y.ring j).rel = 0)) ∧
    (∀ r n, p.op = .kstat r n → r < 32 → (r ≠ 0 → y.reg r = ((o.core c).ring n).kstat) ∧
      (∀ q, q < 32 → q ≠ r → y.reg q = x.reg q) ∧ y.held = { x.held with sreg := y.sreg } ∧ rest) ∧
    (∀ n m d, p.op = .ringReserve n m d none → n < 16 → d < 32 →
      (∀ op, (x.ring n).reserveFault m = some op → s.records t c p.eng false 0x15 (ringInfo n op)) ∧
      ((x.ring n).reserveFault m = none → y.ring n = { x.ring n with rsv := (x.ring n).rsv + BitVec.ofNat 32 m } ∧
        (d ≠ 0 → y.reg d = (x.ring n).slotWord (x.ring n).rsv) ∧ (∀ q, q < 32 → q ≠ d → y.reg q = x.reg q) ∧
        rest)) ∧
    (∀ n q, p.op = .ringPublish n q → n < 16 →
      (∀ op, (x.ring n).publishFault q = some op → s.records t c p.eng false 0x15 (ringInfo n op)) ∧
      ((x.ring n).publishFault q = none → y.ring n = (x.ring n).publish q ∧ y.held = x.held ∧ rest)) ∧
    (∀ n q, p.op = .ringRelease n q → n < 16 →
      (∀ op, (x.ring n).releaseFault q = some op → s.records t c p.eng false 0x15 (ringInfo n op)) ∧
      ((x.ring n).releaseFault q = none → y.ring n = (x.ring n).release q ∧ y.held = x.held ∧ rest)) ∧
    (∀ f, p.op = .signal f → f < 32 → y.flag f = x.flag f + 1 ∧
      (∀ n, n < 32 → n ≠ f → y.flag n = x.flag n) ∧ y.held = { x.held with flags := y.flags } ∧ rest) ∧
    let k := o.core c
    let plain := y.held = x.held ∧ t.cohort = s.cohort ∧ rest
    let writes (n : Nat) (z : Tile) : Prop := n < 16 → (x.tile n).a = false → y.tile n = z.touched ∧
      (∀ m, m ≠ n → y.tile m = x.tile m) ∧ y.sreg = x.sreg ∧ y.scratch = x.scratch ∧ y.acc = x.acc ∧
      t.cohort = s.cohort ∧ rest
    let next (op : POp) (banks : List Nat) : Perform := { p with at_ := p.at_ + 1, op := op, banks := banks }
    let follows (op : POp) (banks : List Nat) : Prop := x.mode ≠ .frozen →
      y.inflight = x.inflight ++ [next op banks] ∧ plain
    let stale (h : W64) : Prop := s.records t c p.eng false 0x13 h
    (∀ n elems off bs, p.op = .tileBytes n elems off bs → writes n ((x.tile n).imagePart elems off bs)) ∧
    (∀ n elems off q len, p.op = .tileLoad n elems off q len →
      writes n ((x.tile n).imagePart elems off (o.bytesAt c q len))) ∧
    (∀ n off q len, p.op = .rowLoad n off q len → writes n ((x.tile n).patched [(off, o.bytesAt c q len)] [])) ∧
    (∀ n row q, p.op = .tripLoad n row q → let b := o.bytesAt c q 528
      writes n ((x.tile n).patched [(row * 512, (b.drop 16).take 512),
        ((row + 1) * 512, (b.drop 8).take 8 ++ List.replicate 504 0)] [])) ∧
    (∀ n elems bs, p.op = .tileScales n elems bs → writes n (if elemBytes (x.tile n).shape = elems then
      { x.tile n with side := (x.tile n).side.write 0 bs } else x.tile n)) ∧
    (∀ n, p.op = .tileZero n → n < 16 →
      y.tile n = { x.tile n with d := false, z := true, a := false, cur := 0, data := [], side := [] } ∧
      (∀ m, m ≠ n → y.tile m = x.tile m) ∧ y.sreg = x.sreg ∧ y.scratch = x.scratch ∧ t.cohort = s.cohort ∧ rest) ∧
    (∀ n cur, p.op = .cursor n cur → n < 16 → y.tile n = { x.tile n with cur := cur } ∧
      (∀ m, m ≠ n → y.tile m = x.tile m) ∧ plain) ∧
    (∀ n w off len beat, p.op = .ldtrRead n w off len beat →
      y.mbuf = x.mbuf.put (p.ord * 256 + beat) (k.scratch.read off len) ∧ plain) ∧
    (∀ n w, p.op = .ldtrWrite n w → n < 16 → (x.tile n).a = false →
      let es := ldtrElements w (k.bufferedRun (p.ord * 256) 9)
      y.tile n = ((x.tile n).patched [(0, packElems 16 (es.map Prod.fst))] []).touched ∧
      (∀ m, m ≠ n → y.tile m = x.tile m) ∧ y.fflags = raiseFlags x.fflags 4 (flagsOf es) ∧ y.sreg = x.sreg ∧
      y.scratch = x.scratch ∧ t.cohort = s.cohort ∧ rest) ∧
    (∀ r h off size sx, p.op = .loadValue r h off size sx → r < 32 →
      (∀ b, k.resolve h = .ok b → (r ≠ 0 → y.reg r = loaded sx (k.scratch.read (k.blockAddr b + off) size)) ∧
        (∀ q, q < 32 → q ≠ r → y.reg q = x.reg q) ∧ y.held = { x.held with sreg := y.sreg } ∧ rest) ∧
      (∀ f, k.resolve h = .error f → stale h ∧ y.sreg = x.sreg)) ∧
    (∀ src dst patch, p.op = .lineRead src none dst patch →
      follows (.store (.scratch dst) (k.scratch.read src 64)) (banksOf dst 64)) ∧
    (∀ src h dst patch, p.op = .lineRead src (some h) dst patch →
      (k.stillValid h = true → follows (.store (.scratch dst)
        (patch.foldl (fun l e => l.set e.1 e.2) (k.scratch.read src 64))) (banksOf dst 64)) ∧
      (k.stillValid h = false → stale h)) ∧
    (∀ src h n elems total off, p.op = .lineToTile src h n elems total off →
      let bs := k.scratch.read src 64
      let tail := ({ x with mbuf := x.mbuf.put (p.ord * 256 + off / 64) bs } : Core).bufferedRun
        (p.ord * 256 + elems / 64) (off / 64 + 1 - elems / 64)
      (k.stillValid h = false → stale h) ∧
      (k.stillValid h = true → off < elems → (off + 64 ≤ elems ∨ total ≤ elems) →
        follows (.tileBytes n elems off (bs.take (elems - off))) []) ∧
      (k.stillValid h = true → x.mode ≠ .frozen → elems < off + 64 → elems < total →
        (off < elems → next (.tileBytes n elems off (bs.take (elems - off))) [] ∈ y.inflight) ∧
        (off + 64 < total → y.mbuf = x.mbuf.put (p.ord * 256 + off / 64) bs) ∧
        (total ≤ off + 64 →
          next (.tileScales n elems ((tail.drop (elems % 64)).take (total - elems))) [] ∈ y.inflight) ∧ plain)) ∧
    (∀ n elems total off dst, p.op = .tileToLine n elems total off dst → follows (.store (.scratch dst)
      ((((k.tile n).data.read 0 elems ++ (k.tile n).side.read 0 (total - elems)).drop off).take 64))
        (banksOf dst 64)) ∧
    (∀ e f, p.op = .flagBits e f → y.fflags = raiseFlags x.fflags e f ∧
      y.held = { x.held with fflags := y.fflags } ∧ t.cohort = s.cohort ∧ rest) ∧
    (∀ v, p.op = .fmtPush v →
      let lost := p.handler = true ∧ k.saved = none
      let full := 64 ≤ (if p.handler then k.stream else k.saved.getD k.stream).fmtq.length
      (lost → t = s) ∧
      (¬ lost → ¬ full → plain ∧
        (∀ z, p.handler = false → x.saved = some z → y.stream = x.stream ∧
          y.saved = some { z with fmtq := z.fmtq ++ [v] }) ∧
        ((p.handler = true ∨ x.saved = none) → y.saved = x.saved ∧
          y.stream = { x.stream with fmtq := x.stream.fmtq ++ [v] })) ∧
      (¬ lost → full → (k.mode = .handler → p.handler = false → t = s) ∧
        ((k.mode ≠ .handler ∨ p.handler = true) → s.records t c 7 true 0x0A (w64 (2 ^ 63 + 64))))) ∧
    (∀ r a op ptr, p.op = .rmw r (.scratch a) op ptr {} → r < 32 → op.attempt = false → op ≠ .take →
      let z := op.apply (x.scratch.read a op.size)
      (r ≠ 0 → y.reg r = z.value) ∧ (∀ q, q < 32 → q ≠ r → y.reg q = x.reg q) ∧ t.cohort = s.cohort ∧
      t.device = s.device ∧
      (∀ bs, z.new = some bs → y.scratch.read a bs.length = bs ∧
        ∀ b, (b < a ∨ a + bs.length ≤ b) → y.scratch.get b = x.scratch.get b) ∧
      (z.new = none → y.scratch = x.scratch)) ∧
    (∀ a op, p.op = .rmw 0 (.cohort a) op 0 {} → op.attempt = true → x.kernelGate.busy = true →
      let z := op.apply ((if op = .take then o else s).cohort.read a op.size)
      y.kernelGate.busy = false ∧ y.kernelGate.holds = z.ok ∧ y.kernelGate.value = z.value ∧
      (∀ bs, z.new = some bs → t.cohort.read a bs.length = bs) ∧ (z.new = none → t.cohort = s.cohort) ∧
      (z.ok = false → ⟨s.tide + 32, if op = .take then .takeRead c else .lockAttempt c, 0⟩ ∈ t.agenda)) ∧
    (∀ key scope ids, p.op = .release key scope ids → t.cores = s.cores ∧
      t.covers = s.covers ++ [⟨s.atValue key, c, k.task, scope, ids⟩]) ∧
    (∀ key scope req, p.op = .acquire key scope req → plain ∧ ∀ q ∈ x.reqs, q.id = req →
      { q with op := .acquired true (o.coveredBy key c scope) } ∈ y.reqs) ∧
    (∀ off req, p.op = .kvaRead off req → t.cores = s.cores ∧ (∀ m ∈ s.msgs, m.id ≠ req → m ∈ t.msgs) ∧
      ∀ m ∈ s.msgs, m.id = req → ∀ page tag start fmt token range, m.kind = .kvAppend page tag start fmt token range →
        { m with kind := .kvAppend page tag start fmt (k.scratch.read off 512) range } ∈ t.msgs) ∧
    (∀ req off, p.op = .spawnRead req off → plain ∧ ∀ q ∈ x.reqs, q.id = req → ∀ r b ws, q.op = .spawn r b ws →
      { q with op := .spawn r b (words64 8 (k.scratch.read off 64)) } ∈ y.reqs) ∧
    (∀ n lock off head, p.op = .kvBeat n lock off head →
      follows (.kvSegment n (segmentOf lock (head ++ k.scratch.read off 64))) []) ∧
    (∀ n g, p.op = .kvSegment n g → n < 16 → vget {} y.kvseg n = g ∧
      (∀ m, m ≠ n → vget {} y.kvseg m = vget {} x.kvseg m) ∧ plain) ∧
    (∀ n, p.op = .kvUnlock n → n < 16 → vget {} y.kvseg n =
        { vget {} x.kvseg n with desc := setBits (vget {} x.kvseg n).desc 62 62 0 } ∧
      (∀ m, m ≠ n → vget {} y.kvseg m = vget {} x.kvseg m) ∧ plain) ∧
    (∀ key off len, p.op = .mRead key off len → y.mbuf = x.mbuf.put key (k.scratch.read off len) ∧ plain) ∧
    (∀ n keys, p.op = .mRetire n keys → n < 16 →
      let r : Ring := { x.ring n with mread := (x.ring n).mread - 1 }
      (∀ op, r.popFault = some op → s.records t c p.eng false 0x15 (ringInfo n op)) ∧
      (r.popFault = none → y.ring n = r.pop ∧ y.mbuf = x.mbuf.filter (fun e => !keys.contains e.1) ∧ plain)) ∧
    ((p.op = .use ∨ ∃ q, p.op = .planeClash q) → t = s)

/-! ### Encodings -/

/-- R285, R294, R300: the words and the instructions agree. Every well-formed instruction that has an encoding is what
its word decodes to, whatever its operands, with its engine, idle count and OP where R285 puts them; and a word that
decodes to an instruction is that instruction's encoding, so no two words mean the same and no bit is dropped. -/
def Obligations.EncodingRoundTrip : Prop :=
  (∀ (i : Instr) (n : Nat), encode i = some n → i.wf = true →
    n < 2 ^ 32 ∧ decode (BitVec.ofNat 32 n) = .instr i) ∧
  ∀ (w : W32) (i : Instr), decode w = .instr i → i.wf = true ∧ encode i = some w.toNat ∧
    assignedOp (engineOf w) (opOf w) = true

/-- R301: FINFO of the two encoding faults holds the word, its stream address and, for 0x02, the position of the first
offending field. A word is illegal exactly when R299 assigns its OP to no instruction; so is a GUARD before a word that it
may not guard. A GUARD whose I is nonzero reports position 26, else 0. -/
def Obligations.EncodingFaultsReported : Prop :=
  ∀ q : QWord,
    let f := encodingFault q (decode q.word)
    let located (x : W64) : Prop := wbits x 45 32 = q.addr % 2 ^ 14 ∧ wbits x 31 0 = q.word.toNat
    (decode q.word = .illegal → ∃ x, f = some (0x01, x) ∧ wbits x 63 46 = 0 ∧ located x) ∧
    (∀ p, decode q.word = .reserved p → ¬(isGuard q.word = true ∧ q.bad = true) → p < 32 ∧
      ∃ x, f = some (0x02, x) ∧ wbits x 63 53 = 0 ∧
      wbits x 52 48 = p ∧ wbits x 47 46 = 0 ∧ located x) ∧
    (decode q.word = .illegal ↔ assignedOp (engineOf q.word) (opOf q.word) = false) ∧
    (isGuard q.word = true → (idleOf q.word ≠ 0 → decode q.word = .reserved 26) ∧
      (idleOf q.word = 0 → q.word.toNat % 256 ≠ 0 → decode q.word = .reserved 0) ∧
      (q.bad = true → ∃ x, f = some (0x01, x) ∧ wbits x 63 46 = 0 ∧ located x) ∧
      (idleOf q.word = 0 → q.word.toNat % 256 = 0 → ∃ r b v, decode q.word = .instr (.guard
        (BitVec.ofNat 3 (engineOf q.word)) r b v) ∧ (q.bad = false → f = none)))

/-- R285 to R299: words of each engine, bit by bit from their layouts. -/
def Obligations.WordsDecode : Prop :=
  decode 0b000_010_000001_00011_00001_00010_00000#32 = .instr (.add 2 3 1 2) ∧
  decode 0b000_000_000011_00101_00110_1111111111#32 = .instr (.addi 0 5 6 0x3FF) ∧
  decode 0b001_000_000001_0011_0001_00010_0_0_0_0_0_00#32 = .instr (.vadd 0 3 1 2 0 0 0 0 0) ∧
  decode 0b010_000_000010_00_0000_0000000_0000000#32 = .instr (.mswp 0) ∧
  decode 0b011_001_000101_00100_00111_00000_00000#32 = .instr (.ttr 1 4 7) ∧
  decode 0b100_000_000001_00001_00010_00011_01_0_11#32 = .instr (.ld 0 1 2 3 1 0 3) ∧
  decode 0b110_000_000001_00000_00000_00000_011_11#32 = .instr (.fence 0 3 3) ∧
  decode 0b111_000_000001_00100_000000000000001#32 = .instr (.csrr 0 4 1) ∧
  decode 0b101_111_111110_00000000000000001001#32 = .instr (.wait 5 7 9) ∧
  decode 0#32 = .illegal

/-! ### The machine -/

/-- R124, R286, R297, R300: a step runs the instruction that comes next: a step of the package with its subject; and, for a
queue whose word issues, the instruction that the word decodes to, in the state where the word has left its queue; a
GUARD first, and then the guarded word or, where the guard holds it back, nothing. A word that R300 stops is stopped. -/
def Obligations.StepRunsDecoded : Prop :=
  ∀ (s : State) (rest : List Act), s.powered = true → s.boot ≠ .fatal →
    let u : State := { s with now := rest }
    (∀ i x, s.now = .event i x :: rest → step s = exec i { u with subject := x }) ∧
    (∀ c e g w, s.now = .issue c e :: rest → ((s.core c).queue e).head = some (g, w) →
      let k := s.core c
      let q := k.queue e
      (∀ code info, s.fateOf c e g w = some (code, info) → step s = .next (u.stopGroup c e code info)) ∧
      (s.fateOf c e g w = none →
        (∀ y i, g = some y → q.guard = none → decode y.word = .instr i →
          k.tooSoon (s.horizon c) s.tide ((operands i).reads.map PendDest.reg) = none →
          step s = exec i { u with cur := ⟨c, e, w, q⟩ }) ∧
        (∀ i, (g = none ∨ q.guard ≠ none) → q.guard ≠ some false → decode w.word = .instr i →
          k.tooSoon (s.horizon c) s.tide (k.touches none w) = none → k.absentRead w = none →
          step s = exec i (u.begin c e g w)) ∧
        (∀ y i, g = some y → decode y.word = .instr i → q.guard = some false →
          step s = .next (u.guardedOff c e g w)))) ∧
    (∀ c e g w, c < 256 → e < 8 →
      let t := u.begin c e g w
      t.cur.core = c ∧ t.cur.eng = e ∧ t.cur.q = w ∧ t.held = s.held ∧
      (t.me.queue e).words = ((s.core c).queue e).words.drop (if g.isSome then 2 else 1) ∧
      ∀ d, d ≠ e → t.me.queue d = (s.core c).queue d)

/-- R20, R22, R23, R107, R138: right after package reset the power limit is 2,000 W, device and cohort memory read as
unwritten, every core is idle with no fault frame, no task waits, and bring-up comes next; the state meets its invariant. A
package without power, or in package fatal, does nothing until a package reset. The model's choices: scalar registers and
flags are 0 at reset (log 1), memory that nothing has written reads 0 (log 2), the first step is PACKAGE_RESET (log 4),
and a package reset is an input (log 37). -/
def Obligations.ResetAndPower : Prop :=
  let r := State.reset
  (r.plimit = 2000 ∧ r.powered = true ∧ r.tide = 0 ∧ r.tasks = [] ∧ r.canonical ∧ r.isDead = false ∧
    (∀ a, r.device.get a = Memory.unwritten ∧ r.cohort.get a = Memory.unwritten) ∧
    (∀ c, (r.core c).mode = .idle ∧ wbit (r.core c).fcause 63 = false ∧ (r.core c).fflags = 0) ∧
    (∀ c f, (r.core c).flag f = 0 ∧ (r.core c).reg f = 0) ∧ ∃ e, step r = exec (.packageReset e) { r with now := [] }) ∧
  ∀ s : State, s.isDead = true →
    (∀ x ∈ s.inputs, ∀ e, x.2 = .packageReset e → ∃ t, step s = .next t ∧ t.powered = true) ∧
    ((∀ x ∈ s.inputs, ∀ e, x.2 ≠ .packageReset e) → (s.powered = false → step s = .fault .powerRemoved) ∧
      (s.powered = true → step s = .fault .packageFatal))

/-- R126, R127: no instruction word changes a register, a tile, an accumulator, a flag or any memory at its issue, and none
writes host memory, in any state and with any operands: whatever it does, a trap included, its results land later. -/
def Obligations.WordsChangeNothingAtIssue : Prop :=
  ∀ (i : Instr) (n : Nat), encode i = some n → ∀ (s t : State), exec i s = .next t →
    t.held = s.held ∧ t.host = s.host ∧ t.tide = s.tide

/-- Every step keeps every memory in its canonical form, from any state: equal contents stay equal data. This is the
model's own invariant; that reset meets it stands in `ResetAndPower`. -/
def Obligations.StepKeepsCanonical : Prop :=
  ∀ s t : State, s.canonical → step s = .next t → t.canonical
end

