-- ==== Sys2Proof/Laws/Encoding.lean ====
section
/-!
SUPPORT. Numbers built from fields and the fields read back, for the words of R285 to R293.
-/

namespace Sys2Proof.Laws

/-- A number from its fields, the lowest first: each a value and a width. -/
def mix : List (Nat × Nat) → Nat
  | [] => 0
  | f :: rest => f.1 + 2 ^ f.2 * mix rest

def width (l : List (Nat × Nat)) : Nat := (l.map Prod.snd).sum

/-- Every value fits its width. -/
def fit : List (Nat × Nat) → Prop
  | [] => True
  | f :: rest => f.1 < 2 ^ f.2 ∧ fit rest

theorem mix_lt (l : List (Nat × Nat)) (h : fit l) : mix l < 2 ^ width l := by
  induction l with
  | nil => simp [mix, width]
  | cons f l ih =>
    have hm := ih h.2
    have hf := h.1
    simp only [mix, width, List.map_cons, List.sum_cons] at *
    rw [Nat.pow_add]
    calc f.1 + 2 ^ f.2 * mix l < 2 ^ f.2 + 2 ^ f.2 * mix l := by omega
      _ = 2 ^ f.2 * (mix l + 1) := by rw [Nat.mul_add, Nat.mul_one, Nat.add_comm]
      _ ≤ _ := Nat.mul_le_mul_left _ hm

theorem mix_append (a b : List (Nat × Nat)) : mix (a ++ b) = mix a + 2 ^ width a * mix b := by
  induction a with
  | nil => simp [mix, width]
  | cons f a ih =>
    simp only [List.cons_append, mix, ih, width, List.map_cons, List.sum_cons, Nat.pow_add]
    rw [Nat.mul_add, Nat.add_assoc, Nat.mul_assoc]

theorem fit_append {a b : List (Nat × Nat)} (h : fit (a ++ b)) : fit a ∧ fit b := by
  induction a with
  | nil => exact ⟨trivial, h⟩
  | cons f a ih => exact ⟨⟨h.1, (ih h.2).1⟩, (ih h.2).2⟩

/-- The bits of some fields, those below them taken off. -/
theorem mix_slice (a b c : List (Nat × Nat)) (h : fit (a ++ (b ++ c))) :
    mix (a ++ (b ++ c)) / 2 ^ width a % 2 ^ width b = mix b := by
  obtain ⟨ha, hbc⟩ := fit_append h
  have hb := (fit_append hbc).1
  rw [mix_append, Nat.add_mul_div_left _ _ (Nat.two_pow_pos _), Nat.div_eq_of_lt (mix_lt a ha), Nat.zero_add, mix_append,
    Nat.add_mul_mod_self_left, Nat.mod_eq_of_lt (mix_lt b hb)]

/-- The bits of `j` fields above the lowest `k`. -/
theorem slice {x : Nat} {l : List (Nat × Nat)} (h : fit l) (hx : x = mix l) (k j : Nat) :
    x / 2 ^ width (l.take k) % 2 ^ width ((l.drop k).take j) = mix ((l.drop k).take j) := by
  have hl : l = l.take k ++ ((l.drop k).take j ++ (l.drop k).drop j) := by
    rw [List.take_append_drop, List.take_append_drop]
  have := mix_slice (l.take k) ((l.drop k).take j) ((l.drop k).drop j) (hl ▸ h)
  rw [← hl] at this
  rw [hx, this]

theorem bf_eq {x lo len : Nat} {v : BitVec len} (h : x / 2 ^ lo % 2 ^ len = v.toNat) : bf x lo len = v := by
  apply BitVec.eq_of_toNat_eq
  rw [bf, BitVec.toNat_ofNat]
  exact h

theorem low {x v : Nat} (n : Nat) (h : x / 2 ^ 0 % 2 ^ n = v) : x % 2 ^ n = v := by
  rw [← h, Nat.pow_zero, Nat.div_one]

theorem zero_eq {x lo len : Nat} (h : x / 2 ^ lo % 2 ^ len = 0) : zeroField x lo len = (lo, true) := by
  rw [zeroField, h]
  rfl

theorem checked_ok {l : List (Nat × Bool)} {i : Instr} (h : ∀ f ∈ l, f.2 = true) : checked l i = .instr i := by
  induction l with
  | nil => rfl
  | cons f l ih =>
    obtain ⟨p, ok⟩ := f
    have hp : ok = true := h (p, ok) (List.mem_cons_self ..)
    subst hp
    exact ih (fun g hg => h g (List.mem_cons_of_mem _ hg))

theorem pack_cons (b v p : Nat) (r : List (Nat × Nat)) : pack b ((v, p) :: r) = pack (b + v * 2 ^ p) r := rfl
theorem pack_nil (b : Nat) : pack b [] = b := rfl

theorem operand_ok {b : BitVec 5} {s r : BitVec 1} (h : vOperandOk b s r = true) :
    (s.toNat == 1 || b.toNat / 16 % 2 == 0) = true ∧ (s.toNat == 0 || r.toNat == 0) = true := by
  revert b s r
  decide

theorem decode_ofNat {n : Nat} {i : Instr} (h : n < 2 ^ 32) (hf : fateOf n = .instr i) :
    decode (BitVec.ofNat 32 n) = .instr i := by
  rw [decode, BitVec.toNat_ofNat, Nat.mod_eq_of_lt h, hf]

end Sys2Proof.Laws
end

