-- ==== Sys2Proof/Laws/Issue.lean ====
section
/-!
SUPPORT. What the shared operations of an issuing word do, said once: checks, room for an exposed
operation, destinations, and operations put in flight.
-/

namespace Sys2Proof.Machine

/-! ### Cores of a state -/

theorem vget_vset_same {α : Type} {n : Nat} (d : α) (v : Vector α n) (i : Nat) (x : α) (h : i < n) :
    vget d (vset v i x) i = x := by
  simp [vget, vset, h]

theorem vget_vset_other {α : Type} {n : Nat} (d : α) (v : Vector α n) {i j : Nat} (x : α) (h : j ≠ i) :
    vget d (vset v i x) j = vget d v j := by
  simp [vget, vset, Ne.symm h]

theorem vset_outside {α : Type} {n : Nat} (v : Vector α n) (i : Nat) (x : α) (h : n ≤ i) :
    vset v i x = v := by
  apply Vector.ext
  intro j hj
  rw [vset, Vector.getElem_setIfInBounds]
  split
  · omega
  · rfl

theorem vset_self {α : Type} {n : Nat} (d : α) (v : Vector α n) (i : Nat) : vset v i (vget d v i) = v := by
  apply Vector.ext
  intro j hj
  rw [vset, Vector.getElem_setIfInBounds]
  split
  · next h => subst h; simp [vget, hj]
  · rfl

theorem vget_outside {α : Type} {n : Nat} (d : α) (v : Vector α n) (i : Nat) (h : n ≤ i) :
    vget d v i = d := by
  simp [vget, h]

theorem vset_vset {α : Type} {n : Nat} (v : Vector α n) (i : Nat) (x y : α) :
    vset (vset v i x) i y = vset v i y := by
  simp [vset]

@[simp] theorem core_setCore_same (s : State) (c : Nat) (k : Core) (h : c < 256) :
    (s.setCore c k).core c = k := vget_vset_same _ _ _ _ h

theorem core_setCore_other (s : State) {c d : Nat} (k : Core) (h : d ≠ c) :
    (s.setCore c k).core d = s.core d := vget_vset_other _ _ _ h

@[simp] theorem core_modCore_same (s : State) (c : Nat) (f : Core → Core) (h : c < 256) :
    (s.modCore c f).core c = f (s.core c) := vget_vset_same _ _ _ _ h

theorem core_modCore_other (s : State) {c d : Nat} (f : Core → Core) (h : d ≠ c) :
    (s.modCore c f).core d = s.core d := vget_vset_other _ _ _ h

theorem setCore_self (s : State) (c : Nat) : s.setCore c (s.core c) = s := by
  show { s with cores := vset s.cores c (vget {} s.cores c) } = s
  rw [vset_self]

theorem setCore_outside (s : State) (c : Nat) (k : Core) (h : 256 ≤ c) : s.setCore c k = s := by
  show { s with cores := vset s.cores c k } = s
  rw [vset_outside _ _ _ h]

/-- Two updates of one core are one. -/
theorem modCore_modCore (s : State) (c : Nat) (f g : Core → Core) :
    (s.modCore c f).modCore c g = s.modCore c (fun k => g (f k)) := by
  by_cases h : c < 256
  · show State.setCore _ _ _ = _
    rw [core_modCore_same _ _ _ h]
    simp [State.modCore, State.setCore, vset_vset]
  · have h' := Nat.not_lt.mp h
    simp only [State.modCore, setCore_outside _ _ _ h']

/-! ### Checks -/

theorem guarded_ok (s : State) (checks : List (Bool × Nat × W64)) (f : State → State)
    (h : firstFault checks = none) : s.guarded checks f = f s := by
  simp [State.guarded, h]

theorem guarded_fault (s : State) (checks : List (Bool × Nat × W64)) (f : State → State) {code : Nat}
    {info : W64} (h : firstFault checks = some (code, info)) : s.guarded checks f = s.trap code info := by
  simp [State.guarded, h]

@[simp] theorem firstFault_nil : firstFault [] = none := rfl

@[simp] theorem firstFault_pass (c : Nat) (i : W64) (rest : List (Bool × Nat × W64)) :
    firstFault ((true, c, i) :: rest) = firstFault rest := rfl

@[simp] theorem firstFault_stop (c : Nat) (i : W64) (rest : List (Bool × Nat × W64)) :
    firstFault ((false, c, i) :: rest) = some (c, i) := rfl

/-- A list of checks passes where every check holds. -/
theorem firstFault_none_iff (xs : List (Bool × Nat × W64)) :
    firstFault xs = none ↔ ∀ x ∈ xs, x.1 = true := by
  induction xs with
  | nil => simp
  | cons x xs ih =>
    obtain ⟨b, c, i⟩ := x
    cases b <;> simp [ih]

theorem exposing_ok (s : State) (f : State → State) (h : s.roomy) : s.exposing f = f s := by
  simp [State.exposing, Nat.not_le.mpr h]

theorem exposing_full (s : State) (f : State → State) (h : 512 ≤ s.me.exposedCount) :
    s.exposing f = s.trap 0x06 (missInfo 5 0 s.tide s.me.tbase) := by
  simp [State.exposing, h]

theorem writing_ok (s : State) (d : BitVec 5) (f : State → State) (h : d.toNat < 24) :
    s.writing d f = f s := by
  simp [State.writing, Nat.not_le.mpr h]

theorem writing_high (s : State) (d : BitVec 5) (f : State → State) (h : 24 ≤ d.toNat) :
    s.writing d f = s.trapShape := by
  simp [State.writing, h]

theorem checked_ok {α : Type} (s : State) (r : Checked α) (f : α → State → State) {x : α}
    (h : r = .ok x) : s.checked r f = f x s := by
  simp [State.checked, h]

/-! ### Operations put in flight -/

theorem post_eq_launch (s : State) (off : Nat) (op : POp) (banks : List Nat) :
    s.post off op banks = s.launch [s.flight off op banks] := rfl

theorem withOps_nil (k : Core) : k.withOps [] = k := by simp [Core.withOps]

theorem withOps_withOps (k : Core) (ps qs : List Perform) :
    (k.withOps ps).withOps qs = k.withOps (ps ++ qs) := by simp [Core.withOps]

@[simp] theorem launch_nil (s : State) : s.launch [] = s := by
  simp only [State.launch, State.modMe, State.modCore, withOps_nil, setCore_self]

/-- Operations put in flight one after the other. -/
theorem launch_launch (s : State) (ps qs : List Perform) :
    (s.launch ps).launch qs = s.launch (ps ++ qs) := by
  have h := modCore_modCore s s.cur.core (fun k => k.withOps ps) (fun k => k.withOps qs)
  simp only [withOps_withOps] at h
  exact h

@[simp] theorem launch_tide (s : State) (ps : List Perform) : (s.launch ps).tide = s.tide := rfl
@[simp] theorem launch_cur (s : State) (ps : List Perform) : (s.launch ps).cur = s.cur := rfl

@[simp] theorem withOps_mode (k : Core) (ps : List Perform) : (k.withOps ps).mode = k.mode := rfl
@[simp] theorem withOps_ord (k : Core) (ps : List Perform) : (k.withOps ps).ord = k.ord := rfl
@[simp] theorem withOps_tile (k : Core) (ps : List Perform) (n : Nat) : (k.withOps ps).tile n = k.tile n := rfl

/-- The core that issues changes in its operations in flight alone. -/
theorem launch_me (s : State) (ps : List Perform) : ∃ qs, (s.launch ps).me = s.me.withOps qs := by
  by_cases h : s.cur.core < 256
  · exact ⟨ps, core_modCore_same s s.cur.core (fun k => k.withOps ps) h⟩
  · refine ⟨[], ?_⟩
    rw [withOps_nil, State.launch, State.modMe, State.modCore, setCore_outside _ _ _ (Nat.not_lt.mp h)]

theorem launch_tile (s : State) (ps : List Perform) (n : Nat) : (s.launch ps).me.tile n = s.me.tile n := by
  obtain ⟨qs, h⟩ := launch_me s ps
  rw [h, withOps_tile]

theorem launch_flight (s : State) (ps : List Perform) (off : Nat) (op : POp) (banks : List Nat) :
    (s.launch ps).flight off op banks = s.flight off op banks := by
  obtain ⟨qs, h⟩ := launch_me s ps
  simp only [State.flight, launch_tide, launch_cur, State.inHandler, h, withOps_mode, withOps_ord]

theorem launch_post (s : State) (ps : List Perform) (off : Nat) (op : POp) (banks : List Nat) :
    (s.launch ps).post off op banks = s.launch (ps ++ [s.flight off op banks]) := by
  rw [post_eq_launch, launch_flight, launch_launch]

/-- Cursors put in flight behind other operations. -/
theorem launch_advance (s : State) (ps : List Perform) (ts : List Nat) (step : Nat) :
    (s.launch ps).advance ts step = s.launch (ps ++ s.bumps ts step) := by
  induction ts generalizing ps with
  | nil => simp [State.advance, State.bumps]
  | cons n ts ih =>
    have h := ih (ps ++ [s.flight 1 (.cursor n (((s.me.tile n).cur + step) % (s.me.tile n).rows))])
    simp only [State.advance, List.foldl_cons] at h ⊢
    rw [launch_post, launch_tile, h]
    simp [State.bumps]

/-- A scalar result in flight (R303, R309). -/
theorem scalar_launch (s : State) (d : BitVec 5) (off : Nat) (v : W64) (hd : d.toNat < 24) (hs : s.roomy) :
    s.scalar d off v = s.launch [s.flight off (.reg d.toNat v)] := by
  rw [State.scalar, writing_ok _ _ _ hd, exposing_ok _ _ hs, post_eq_launch]

/-! ### Tiles -/

/-- The presence checks of a tile pass where a word may use it. -/
theorem tileChecks_pass (k : Core) (n : Nat) : (∀ x ∈ k.tileChecks n, x.1 = true) ↔ k.usable n := by
  simp only [Core.tileChecks, Core.usable, List.forall_mem_cons, List.not_mem_nil, false_implies, implies_true,
    and_true]
  cases (k.tile n).a <;> simp

/-- The checks of R349 pass where the tiles are alike. -/
theorem vChecks_pass (k : Core) (cls : Nat → Bool) (ts : List Nat) :
    firstFault (k.vChecks cls ts) = none ↔ k.alike cls ts := by
  rw [firstFault_none_iff]
  simp only [Core.vChecks, Core.alike, List.forall_mem_append, List.forall_mem_flatMap, List.forall_mem_cons,
    List.not_mem_nil, false_implies, implies_true, and_true, typeCheck, beq_iff_eq]
  constructor
  · exact fun h n hn => ⟨(tileChecks_pass k n).1 (h.1 n hn), h.2 n hn⟩
  · exact fun h => ⟨fun n hn => (tileChecks_pass k n).2 (h n hn).1, fun n hn => (h n hn).2⟩

end Sys2Proof.Machine
end

