-- ==== Sys2Proof/Laws/Memory.lean ====
section
/-!
SUPPORT. Reading and writing storage: a read is the bytes at its addresses, a write changes its bytes alone,
and every operation keeps the canonical form.
-/

namespace Sys2Proof

/-! ### Reading one entry -/

theorem Sparse.get_append {α : Type} (d : α) (xs ys : Sparse α) (a : Nat) :
    Sparse.get d (xs ++ ys) a = if a ∈ xs.map Prod.fst then Sparse.get d xs a else Sparse.get d ys a := by
  induction xs with
  | nil => simp
  | cons x xs ih =>
    obtain ⟨j, v⟩ := x
    by_cases h : j = a
    · simp [Sparse.get, h]
    · show Sparse.get d ((j, v) :: (xs ++ ys)) a = _
      simp only [Sparse.get, if_neg h, ih]
      have e : (a ∈ ((j, v) :: xs).map Prod.fst) ↔ a ∈ xs.map Prod.fst := by simp [Ne.symm h]
      by_cases q : a ∈ xs.map Prod.fst
      · rw [if_pos q, if_pos (e.mpr q)]
      · rw [if_neg q, if_neg (fun x => q (e.mp x))]

theorem Sparse.get_of_notMem {α : Type} (d : α) (m : Sparse α) (a : Nat) (h : a ∉ m.map Prod.fst) :
    Sparse.get d m a = d := by
  induction m with
  | nil => rfl
  | cons x xs ih =>
    obtain ⟨j, v⟩ := x
    simp only [List.map_cons, List.mem_cons, not_or] at h
    simp [Sparse.get, Ne.symm h.1, ih h.2]

/-- Entries whose keys all satisfy a test read as before wherever it holds. -/
theorem Sparse.get_filter {α : Type} (d : α) (m : Sparse α) (p : Nat → Bool) (a : Nat) :
    Sparse.get d (m.filter (fun e => p e.1)) a = if p a then Sparse.get d m a else d := by
  induction m with
  | nil => simp [Sparse.get]
  | cons x xs ih =>
    obtain ⟨j, v⟩ := x
    by_cases h : j = a
    · subst h
      by_cases q : p j <;> simp_all [Sparse.get]
    · by_cases q : p j <;> simp_all [Sparse.get]

theorem Sparse.mem_run {α : Type} [DecidableEq α] (d : α) (k : Nat) (vs : List α) (a : Nat)
    (h : a ∈ (Sparse.run d k vs).map Prod.fst) : k ≤ a ∧ a < k + vs.length := by
  induction vs generalizing k with
  | nil => simp [Sparse.run] at h
  | cons v vs ih =>
    simp only [Sparse.run] at h
    split at h
    · have := ih (k + 1) h
      simp only [List.length_cons]
      omega
    · simp only [List.map_cons, List.mem_cons] at h
      rcases h with h | h
      · simp only [List.length_cons]
        omega
      · have := ih (k + 1) h
        simp only [List.length_cons]
        omega

theorem Sparse.get_run {α : Type} [DecidableEq α] (d : α) (k : Nat) (vs : List α) (i : Nat) :
    Sparse.get d (Sparse.run d k vs) (k + i) = vs.getD i d := by
  induction vs generalizing k i with
  | nil => simp [Sparse.run, Sparse.get]
  | cons v vs ih =>
    cases i with
    | zero =>
      simp only [Sparse.run]
      split
      · next h =>
        rw [Sparse.get_of_notMem]
        · simp [h]
        · intro hm
          have := Sparse.mem_run _ _ _ _ hm
          omega
      · simp [Sparse.get]
    | succ i =>
      have := ih (k + 1) i
      rw [show k + 1 + i = k + (i + 1) by omega] at this
      simp only [Sparse.run]
      split
      · simpa using this
      · simp [Sparse.get, this]

/-- A write gives its values at its keys, and leaves every other key alone. -/
theorem Sparse.get_write {α : Type} [DecidableEq α] (d : α) (m : Sparse α) (k : Nat) (vs : List α) (a : Nat) :
    Sparse.get d (m.write d k vs) a =
      if k ≤ a ∧ a < k + vs.length then vs.getD (a - k) d else Sparse.get d m a := by
  have hin := Sparse.mem_run d k vs a
  have hlow := Sparse.get_filter d m (fun e => decide (e < k)) a
  have hhigh := Sparse.get_filter d m (fun e => decide (k + vs.length ≤ e)) a
  have nlow : ¬ a < k → a ∉ (m.filter (fun e => decide (e.1 < k))).map Prod.fst := by
    intro h hm
    obtain ⟨x, hx, rfl⟩ := List.mem_map.mp hm
    have := (List.mem_filter.mp hx).2
    simp only [decide_eq_true_eq] at this
    exact h this
  unfold Sparse.write
  rw [Sparse.get_append, Sparse.get_append]
  by_cases h1 : a < k
  · have hr : ¬ (k ≤ a ∧ a < k + vs.length) := by omega
    have h2 : ¬ k + vs.length ≤ a := by omega
    rw [if_neg (fun h => hr (hin h)), if_neg hr, hlow, hhigh]
    simp only [h1, h2, decide_true, decide_false, if_true]
    split
    · rfl
    · next hn =>
      have := Sparse.get_of_notMem d _ _ hn
      rw [hlow] at this
      simpa [h1] using this.symm
  · rw [if_neg (nlow h1)]
    by_cases h2 : a < k + vs.length
    · have hg := Sparse.get_run d k vs (a - k)
      rw [show k + (a - k) = a by omega] at hg
      have hr : k ≤ a ∧ a < k + vs.length := by omega
      rw [if_pos hr, ← hg, hhigh]
      split
      · rfl
      · next hn =>
        rw [Sparse.get_of_notMem d _ _ hn]
        simp
        omega
    · have hr : ¬ (k ≤ a ∧ a < k + vs.length) := by omega
      rw [if_neg (fun h => hr (hin h)), if_neg hr, hhigh, if_pos]
      simp
      omega

theorem Sparse.get_set_same {α : Type} [DecidableEq α] (d : α) (m : Sparse α) (k : Nat) (v : α) :
    Sparse.get d (m.set d k v) k = v := by
  simp [Sparse.set, Sparse.get_write]

theorem Sparse.get_set_other {α : Type} [DecidableEq α] (d : α) (m : Sparse α) (k : Nat) (v : α) (a : Nat)
    (h : a ≠ k) : Sparse.get d (m.set d k v) a = Sparse.get d m a := by
  rw [Sparse.set, Sparse.get_write, if_neg]
  simp
  omega

/-! ### Reading a run -/

/-- Reading inside a window is reading the whole. -/
theorem Sparse.get_window {α : Type} (d : α) (m : Sparse α) (k n a : Nat) (h : k ≤ a ∧ a < k + n) :
    Sparse.get d (m.window k n) a = Sparse.get d m a := by
  have := Sparse.get_filter d m (fun e => decide (k ≤ e) && decide (e < k + n)) a
  rw [if_pos (by simp [h.1, h.2])] at this
  exact this

theorem range_blocks {β : Type} (f : Nat → β) (n : Nat) :
    (List.range ((n + 63) / 64)).flatMap (fun b => (List.range (Nat.min 64 (n - 64 * b))).map (fun i => f (64 * b + i)))
      = (List.range n).map f := by
  have key : ∀ m, m * 64 ≤ n + 63 → (List.range m).flatMap
      (fun b => (List.range (Nat.min 64 (n - 64 * b))).map (fun i => f (64 * b + i))) =
      (List.range (Nat.min n (64 * m))).map f := by
    intro m
    induction m with
    | zero => simp
    | succ m ih =>
      intro h
      rw [List.range_succ, List.flatMap_append, ih (by omega)]
      simp only [List.flatMap_cons, List.flatMap_nil, List.append_nil]
      have e1 : Nat.min n (64 * m) = 64 * m := Nat.min_eq_right (by omega)
      have e2 : Nat.min n (64 * (m + 1)) = 64 * m + Nat.min 64 (n - 64 * m) := by
        simp only [Nat.min_def]
        split <;> split <;> omega
      rw [e1, e2, List.range_add, List.map_append, List.map_map]
      rfl
  rw [key _ (by omega)]
  congr 2
  exact Nat.min_eq_left (by omega)

/-- A run that is read is its entries, one by one. -/
theorem Sparse.read_eq {α : Type} (d : α) (m : Sparse α) (k n : Nat) :
    Sparse.read d m k n = (List.range n).map (fun i => Sparse.get d m (k + i)) := by
  rw [← range_blocks]
  unfold Sparse.read
  apply congrArg List.flatten
  apply List.map_congr_left
  intro b hb
  apply List.map_congr_left
  intro i hi
  simp only [List.mem_range] at hi
  have h1 : i < 64 := Nat.lt_of_lt_of_le hi (Nat.min_le_left _ _)
  have h2 : i < n - 64 * b := Nat.lt_of_lt_of_le hi (Nat.min_le_right _ _)
  rw [Sparse.get_window _ _ _ _ _ ⟨by omega, by omega⟩, Sparse.get_window _ _ _ _ _ ⟨by omega, by omega⟩,
    Nat.add_assoc]

theorem Sparse.read_length {α : Type} (d : α) (m : Sparse α) (k n : Nat) : (Sparse.read d m k n).length = n := by
  simp [Sparse.read_eq]

theorem Sparse.read_getD {α : Type} (d : α) (m : Sparse α) (k n i : Nat) (x : α) (h : i < n) :
    (Sparse.read d m k n).getD i x = Sparse.get d m (k + i) := by
  simp [Sparse.read_eq, h]

/-- A read after a write of the same run gives what was written. -/
theorem Sparse.read_write_same {α : Type} [DecidableEq α] (d : α) (m : Sparse α) (k : Nat) (vs : List α) :
    Sparse.read d (m.write d k vs) k vs.length = vs := by
  rw [Sparse.read_eq]
  apply List.ext_getElem
  · simp
  · intro i h1 h2
    simp only [List.getElem_map, List.getElem_range]
    rw [Sparse.get_write, if_pos ⟨by omega, by omega⟩]
    simp [h2]

/-- A read of a run that a write leaves alone. -/
theorem Sparse.read_write_other {α : Type} [DecidableEq α] (d : α) (m : Sparse α) (k : Nat) (vs : List α) (a n : Nat)
    (h : a + n ≤ k ∨ k + vs.length ≤ a) : Sparse.read d (m.write d k vs) a n = Sparse.read d m a n := by
  rw [Sparse.read_eq, Sparse.read_eq]
  apply List.map_congr_left
  intro i hi
  simp only [List.mem_range] at hi
  rw [Sparse.get_write, if_neg (by omega)]

/-! ### Memory -/

@[simp] theorem Memory.read_length (m : Memory) (a n : Nat) : (m.read a n).length = n := Sparse.read_length _ _ _ _

theorem Memory.read_write_same (m : Memory) (a : Nat) (bs : List Byte) : (m.write a bs).read a bs.length = bs :=
  Sparse.read_write_same _ _ _ _

theorem Memory.read_write_other (m : Memory) (a : Nat) (bs : List Byte) (b n : Nat)
    (h : b + n ≤ a ∨ a + bs.length ≤ b) : (m.write a bs).read b n = m.read b n :=
  Sparse.read_write_other _ _ _ _ _ _ h

theorem Memory.get_write_other (m : Memory) (a : Nat) (bs : List Byte) (b : Nat)
    (h : b < a ∨ a + bs.length ≤ b) : (m.write a bs).get b = m.get b := by
  show Sparse.get _ _ _ = _
  rw [Memory.write, Sparse.get_write, if_neg (by omega)]
  rfl

theorem Memory.get_write (m : Memory) (a : Nat) (bs : List Byte) (b : Nat) :
    (m.write a bs).get b = if a ≤ b ∧ b < a + bs.length then bs.getD (b - a) 0 else m.get b :=
  Sparse.get_write _ _ _ _ _

theorem Memory.read_getD (m : Memory) (a n i : Nat) (x : Byte) (h : i < n) : (m.read a n).getD i x = m.get (a + i) :=
  Sparse.read_getD _ _ _ _ _ _ h

/-! ### The canonical form -/

/-- Strictly rising keys, in the form that proofs use. -/
theorem Sparse.rising_iff {α : Type} (m : Sparse α) :
    m.rising = true ↔ m.Pairwise (fun x y => x.1 < y.1) := by
  induction m with
  | nil => simp [Sparse.rising]
  | cons x xs ih =>
    cases xs with
    | nil => simp [Sparse.rising]
    | cons y ys =>
      simp only [Sparse.rising, Bool.and_eq_true, decide_eq_true_eq, ih]
      constructor
      · rintro ⟨h, hp⟩
        refine List.Pairwise.cons ?_ hp
        intro z hz
        rcases List.mem_cons.mp hz with rfl | hz
        · exact h
        · exact Nat.lt_trans h (List.rel_of_pairwise_cons hp hz)
      · intro hp
        exact ⟨List.rel_of_pairwise_cons hp (List.mem_cons_self ..), hp.of_cons⟩

theorem Sparse.wf_iff {α : Type} [DecidableEq α] (d : α) (m : Sparse α) :
    Sparse.wf d m = true ↔ m.Pairwise (fun x y => x.1 < y.1) ∧ ∀ e ∈ m, e.2 ≠ d := by
  simp [Sparse.wf, Sparse.rising_iff]

@[simp] theorem Sparse.wf_nil {α : Type} [DecidableEq α] (d : α) : Sparse.wf d ([] : Sparse α) = true := rfl

/-- Entries left out keep the form. -/
theorem Sparse.wf_filter {α : Type} [DecidableEq α] (d : α) (m : Sparse α) (p : Nat × α → Bool)
    (h : Sparse.wf d m = true) : Sparse.wf d (m.filter p) = true := by
  rw [Sparse.wf_iff] at *
  exact ⟨h.1.filter _, fun e he => h.2 e (List.mem_filter.mp he).1⟩

theorem Sparse.wf_run {α : Type} [DecidableEq α] (d : α) (k : Nat) (vs : List α) :
    Sparse.wf d (Sparse.run d k vs) = true := by
  rw [Sparse.wf_iff]
  induction vs generalizing k with
  | nil => simp [Sparse.run]
  | cons v vs ih =>
    simp only [Sparse.run]
    split
    · exact ih (k + 1)
    · next h =>
      refine ⟨List.Pairwise.cons ?_ (ih (k + 1)).1, ?_⟩
      · intro e he
        have := Sparse.mem_run d (k + 1) vs e.1 (List.mem_map_of_mem he)
        show k < e.1
        omega
      · intro e he
        rcases List.mem_cons.mp he with rfl | he
        · exact h
        · exact (ih (k + 1)).2 e he

/-- A write keeps the form. -/
theorem Sparse.wf_write {α : Type} [DecidableEq α] (d : α) (m : Sparse α) (k : Nat) (vs : List α)
    (h : Sparse.wf d m = true) : Sparse.wf d (m.write d k vs) = true := by
  have hr := Sparse.wf_run d k vs
  have key : ∀ e ∈ Sparse.run d k vs, k ≤ e.1 ∧ e.1 < k + vs.length := fun e he =>
    Sparse.mem_run d k vs e.1 (List.mem_map_of_mem he)
  rw [Sparse.wf_iff] at *
  unfold Sparse.write
  constructor
  · rw [List.pairwise_append, List.pairwise_append]
    refine ⟨h.1.filter _, ⟨hr.1, h.1.filter _, ?_⟩, ?_⟩
    · intro x hx y hy
      have := key x hx
      have := (List.mem_filter.mp hy).2
      simp only [decide_eq_true_eq] at this
      omega
    · intro x hx y hy
      have hx := (List.mem_filter.mp hx).2
      simp only [decide_eq_true_eq] at hx
      rcases List.mem_append.mp hy with hy | hy
      · have := key y hy
        omega
      · have hy := (List.mem_filter.mp hy).2
        simp only [decide_eq_true_eq] at hy
        omega
  · intro e he
    rcases List.mem_append.mp he with he | he
    · exact h.2 e (List.mem_filter.mp he).1
    · rcases List.mem_append.mp he with he | he
      · exact hr.2 e he
      · exact h.2 e (List.mem_filter.mp he).1

theorem Sparse.wf_set {α : Type} [DecidableEq α] (d : α) (m : Sparse α) (k : Nat) (v : α)
    (h : Sparse.wf d m = true) : Sparse.wf d (m.set d k v) = true := Sparse.wf_write d m k [v] h

theorem Memory.wf_write (m : Memory) (a : Nat) (bs : List Byte) (h : m.wf = true) : (m.write a bs).wf = true :=
  Sparse.wf_write _ _ _ _ h

theorem Memory.wf_filter (m : Memory) (p : Nat × Byte → Bool) (h : m.wf = true) :
    Memory.wf (m.filter p) = true := Sparse.wf_filter _ _ _ h

theorem Memory.wf_nil : Memory.wf [] = true := rfl

/-- The memories of the package right after reset have the form. -/
theorem Memory.wf_reset : Machine.State.reset.device.wf = true ∧ Machine.State.reset.cohort.wf = true ∧
    Machine.State.reset.host.wf = true := ⟨rfl, rfl, rfl⟩

end Sys2Proof
end

