-- ==== Sys2Proof/Laws/PerInstr.lean ====
section
/-!
SUPPORT. For each instruction: its word has 32 bits (R285).
-/

namespace Sys2Proof.Laws.Encoded

open Sys2Proof.Laws

/-- The word that encodes an instruction has 32 bits. -/
def Statement (i : Instr) : Prop := ∀ n, encode i = some n → n < 2 ^ 32

theorem packageReset (env : BootEnv) : Statement (.packageReset env) := nofun
theorem tideCompare (bad : BitVec 4) : Statement (.tideCompare bad) := nofun
theorem powerWindow (watts : Nat) : Statement (.powerWindow watts) := nofun
theorem thermalSample (celsius : Nat) : Statement (.thermalSample celsius) := nofun
theorem rcvgo (v : W64) : Statement (.rcvgo v) := nofun
theorem recoveryImageRead (r : RecoveryRead) : Statement (.recoveryImageRead r) := nofun
theorem uncorrectableFlit (edge : Nat) (timed : Bool) : Statement (.uncorrectableFlit edge timed) := nofun
theorem stationDown (station : Nat) : Statement (.stationDown station) := nofun
theorem inboxWrite (addr : BitVec 48) (data : List Byte) : Statement (.inboxWrite addr data) := nofun
theorem inboxRead (addr : BitVec 48) (len : Nat) : Statement (.inboxRead addr len) := nofun
theorem inboxAtomic (addr : BitVec 48) : Statement (.inboxAtomic addr) := nofun
theorem remoteAccess (r : RemoteAccess) : Statement (.remoteAccess r) := nofun
theorem inboxWriteSend (core : Nat) (home : Nat) : Statement (.inboxWriteSend core home) := nofun
theorem ethernetTransferComplete (transfer : Nat) (delivered : Bool) : Statement (.ethernetTransferComplete transfer delivered) := nofun
theorem ethernetPortDown (port : Nat) : Statement (.ethernetPortDown port) := nofun
theorem plimitWrite (v : W64) : Statement (.plimitWrite v) := nofun
theorem partitionConfigWrite (p : Nat) (off : Nat) (v : W64) : Statement (.partitionConfigWrite p off v) := nofun
theorem pcmdStart (p : Nat) : Statement (.pcmdStart p) := nofun
theorem pcmdReset (p : Nat) : Statement (.pcmdReset p) := nofun
theorem firmwarePartitionReset (p : Nat) : Statement (.firmwarePartitionReset p) := nofun
theorem partitionResetComplete (p : Nat) : Statement (.partitionResetComplete p) := nofun
theorem keyOwnerWrite (slot : Nat) (v : Byte) : Statement (.keyOwnerWrite slot v) := nofun
theorem inboxBindingWrite (entry : Nat) (v : Byte) : Statement (.inboxBindingWrite entry v) := nofun
theorem kvsplitWrite (v : W64) : Statement (.kvsplitWrite v) := nofun
theorem attest (fn : Nat) : Statement (.attest fn) := nofun
theorem loadkey (fn : Nat) : Statement (.loadkey fn) := nofun
theorem clearkey (fn : Nat) : Statement (.clearkey fn) := nofun
theorem getcert (fn : Nat) : Statement (.getcert fn) := nofun
theorem qcfgWrite (vf : Nat) (q : Nat) (v : W64) : Statement (.qcfgWrite vf q v) := nofun
theorem qtailWrite (vf : Nat) (q : Nat) (v : W64) : Statement (.qtailWrite vf q v) := nofun
theorem qbaseWrite (vf : Nat) (q : Nat) (v : W64) : Statement (.qbaseWrite vf q v) := nofun
theorem ovsizeWrite (vf : Nat) (v : W64) : Statement (.ovsizeWrite vf v) := nofun
theorem eqsizeWrite (fn : Nat) (v : W64) : Statement (.eqsizeWrite fn v) := nofun
theorem evack (fn : Nat) (v : W64) : Statement (.evack fn v) := nofun
theorem xigo (vf : Nat) (v : W64) : Statement (.xigo vf v) := nofun
theorem invalidationDone (vf : Nat) : Statement (.invalidationDone vf) := nofun
theorem flrVf (vf : Nat) : Statement (.flrVf vf) := nofun
theorem flrVfComplete (vf : Nat) : Statement (.flrVfComplete vf) := nofun
theorem coreRetirement (core : Nat) : Statement (.coreRetirement core) := nofun
theorem bankRemapCommand (bank : Nat) (rows : List Nat) : Statement (.bankRemapCommand bank rows) := nofun
theorem registerWrite (fn : Nat) (off : Nat) (v : W64) : Statement (.registerWrite fn off v) := nofun
theorem taskTake (vf : Nat) (q : Nat) : Statement (.taskTake vf q) := nofun
theorem kernelNode (graph : Nat) : Statement (.kernelNode graph) := nofun
theorem copyNode (graph : Nat) : Statement (.copyNode graph) := nofun
theorem copyNodeComplete (copy : Nat) : Statement (.copyNodeComplete copy) := nofun
theorem signalNode (graph : Nat) : Statement (.signalNode graph) := nofun
theorem waitNode (graph : Nat) : Statement (.waitNode graph) := nofun
theorem waitNodeReread (graph : Nat) : Statement (.waitNodeReread graph) := nofun
theorem waitNodeTimeout (graph : Nat) : Statement (.waitNodeTimeout graph) := nofun
theorem conditionalNode (graph : Nat) : Statement (.conditionalNode graph) := nofun
theorem loopNode (graph : Nat) : Statement (.loopNode graph) := nofun
theorem joinNode (graph : Nat) : Statement (.joinNode graph) := nofun
theorem graphComplete (graph : Nat) : Statement (.graphComplete graph) := nofun
theorem spillMove (vf : Nat) (q : Nat) : Statement (.spillMove vf q) := nofun
theorem admissionDecision (die : Nat) : Statement (.admissionDecision die) := nofun
theorem reservationCandidate (task : Nat) : Statement (.reservationCandidate task) := nofun
theorem rowLoadComplete (core : Nat) (row : Nat) : Statement (.rowLoadComplete core row) := nofun
theorem gangStart (task : Nat) : Statement (.gangStart task) := nofun
theorem preemptionStop (task : Nat) : Statement (.preemptionStop task) := nofun
theorem coreRelease (task : Nat) : Statement (.coreRelease task) := nofun
theorem runmaxExpiry (task : Nat) : Statement (.runmaxExpiry task) := nofun
theorem haltWatchdogExpiry (core : Nat) : Statement (.haltWatchdogExpiry core) := nofun
theorem slipWatchdogExpiry (task : Nat) : Statement (.slipWatchdogExpiry task) := nofun
theorem gateWatchdogExpiry (core : Nat) : Statement (.gateWatchdogExpiry core) := nofun
theorem gangEnd (task : Nat) : Statement (.gangEnd task) := nofun
theorem taskComplete (task : Nat) : Statement (.taskComplete task) := nofun
theorem presenceCheck (core : Nat) : Statement (.presenceCheck core) := nofun
theorem slipPlane (task : Nat) : Statement (.slipPlane task) := nofun
theorem slipResume (task : Nat) : Statement (.slipResume task) := nofun
theorem freezeArrival (core : Nat) : Statement (.freezeArrival core) := nofun
theorem handlerStart (task : Nat) : Statement (.handlerStart task) := nofun
theorem gangResume (task : Nat) : Statement (.gangResume task) := nofun
theorem tileReloadComplete (core : Nat) (tile : Nat) : Statement (.tileReloadComplete core tile) := nofun
theorem gateArrival (core : Nat) : Statement (.gateArrival core) := nofun
theorem gateOpen (core : Nat) : Statement (.gateOpen core) := nofun
theorem translationWalkDone (core : Nat) : Statement (.translationWalkDone core) := nofun
theorem globalLoadLanding (core : Nat) (req : Nat) : Statement (.globalLoadLanding core req) := nofun
theorem globalWriteAck (core : Nat) (req : Nat) : Statement (.globalWriteAck core req) := nofun
theorem statusReplyLanding (core : Nat) (req : Nat) : Statement (.statusReplyLanding core req) := nofun
theorem coolingReclaim (core : Nat) (block : Nat) : Statement (.coolingReclaim core block) := nofun
theorem bankRefresh (bank : Nat) : Statement (.bankRefresh bank) := nofun
theorem bankRemapComplete (bank : Nat) (rows : List Nat) (lost : List Nat) : Statement (.bankRemapComplete bank rows lost) := nofun
theorem phaseOne (group : Nat) (c : Nat) : Statement (.phaseOne group c) := nofun
theorem engineCommandStart (core : Nat) (cmd : Nat) : Statement (.engineCommandStart core cmd) := nofun
theorem engineCommandRetire (core : Nat) (cmd : Nat) : Statement (.engineCommandRetire core cmd) := nofun
theorem chainEntryFetch (core : Nat) (slot : Nat) : Statement (.chainEntryFetch core slot) := nofun
theorem lockAttempt (core : Nat) : Statement (.lockAttempt core) := nofun
theorem takeRead (core : Nat) : Statement (.takeRead core) := nofun
theorem add (i : BitVec 3) (d : BitVec 5) (a : BitVec 5) (b : BitVec 5) : Statement (.add i d a b) := by
  intro w h
  rw [← Option.some.inj h, pack_cons, pack_cons, pack_cons, pack_cons, pack_nil]
  omega
theorem sub (i : BitVec 3) (d : BitVec 5) (a : BitVec 5) (b : BitVec 5) : Statement (.sub i d a b) := by
  intro w h
  rw [← Option.some.inj h, pack_cons, pack_cons, pack_cons, pack_cons, pack_nil]
  omega
theorem addi (i : BitVec 3) (d : BitVec 5) (a : BitVec 5) (m : BitVec 10) : Statement (.addi i d a m) := by
  intro w h
  rw [← Option.some.inj h, pack_cons, pack_cons, pack_cons, pack_cons, pack_nil]
  omega
theorem mul (i : BitVec 3) (d : BitVec 5) (a : BitVec 5) (b : BitVec 5) : Statement (.mul i d a b) := by
  intro w h
  rw [← Option.some.inj h, pack_cons, pack_cons, pack_cons, pack_cons, pack_nil]
  omega
theorem mulh (i : BitVec 3) (d : BitVec 5) (a : BitVec 5) (b : BitVec 5) (n : BitVec 1) : Statement (.mulh i d a b n) := by
  intro w h
  rw [← Option.some.inj h, pack_cons, pack_cons, pack_cons, pack_cons, pack_cons, pack_nil]
  omega
theorem div (i : BitVec 3) (d : BitVec 5) (a : BitVec 5) (b : BitVec 5) (f : BitVec 2) : Statement (.div i d a b f) := by
  intro w h
  rw [← Option.some.inj h, pack_cons, pack_cons, pack_cons, pack_cons, pack_cons, pack_nil]
  omega
theorem and (i : BitVec 3) (d : BitVec 5) (a : BitVec 5) (b : BitVec 5) : Statement (.and i d a b) := by
  intro w h
  rw [← Option.some.inj h, pack_cons, pack_cons, pack_cons, pack_cons, pack_nil]
  omega
theorem or (i : BitVec 3) (d : BitVec 5) (a : BitVec 5) (b : BitVec 5) : Statement (.or i d a b) := by
  intro w h
  rw [← Option.some.inj h, pack_cons, pack_cons, pack_cons, pack_cons, pack_nil]
  omega
theorem xor (i : BitVec 3) (d : BitVec 5) (a : BitVec 5) (b : BitVec 5) : Statement (.xor i d a b) := by
  intro w h
  rw [← Option.some.inj h, pack_cons, pack_cons, pack_cons, pack_cons, pack_nil]
  omega
theorem andi (i : BitVec 3) (d : BitVec 5) (a : BitVec 5) (m : BitVec 10) : Statement (.andi i d a m) := by
  intro w h
  rw [← Option.some.inj h, pack_cons, pack_cons, pack_cons, pack_cons, pack_nil]
  omega
theorem ori (i : BitVec 3) (d : BitVec 5) (a : BitVec 5) (m : BitVec 10) : Statement (.ori i d a m) := by
  intro w h
  rw [← Option.some.inj h, pack_cons, pack_cons, pack_cons, pack_cons, pack_nil]
  omega
theorem xori (i : BitVec 3) (d : BitVec 5) (a : BitVec 5) (m : BitVec 10) : Statement (.xori i d a m) := by
  intro w h
  rw [← Option.some.inj h, pack_cons, pack_cons, pack_cons, pack_cons, pack_nil]
  omega
theorem shl (i : BitVec 3) (d : BitVec 5) (a : BitVec 5) (b : BitVec 5) : Statement (.shl i d a b) := by
  intro w h
  rw [← Option.some.inj h, pack_cons, pack_cons, pack_cons, pack_cons, pack_nil]
  omega
theorem shlImm (i : BitVec 3) (d : BitVec 5) (a : BitVec 5) (b : BitVec 5) (h : BitVec 1) : Statement (.shlImm i d a b h) := by
  intro w h
  rw [← Option.some.inj h, pack_cons, pack_cons, pack_cons, pack_cons, pack_cons, pack_nil]
  omega
theorem shr (i : BitVec 3) (d : BitVec 5) (a : BitVec 5) (b : BitVec 5) : Statement (.shr i d a b) := by
  intro w h
  rw [← Option.some.inj h, pack_cons, pack_cons, pack_cons, pack_cons, pack_nil]
  omega
theorem shrImm (i : BitVec 3) (d : BitVec 5) (a : BitVec 5) (b : BitVec 5) (h : BitVec 1) : Statement (.shrImm i d a b h) := by
  intro w h
  rw [← Option.some.inj h, pack_cons, pack_cons, pack_cons, pack_cons, pack_cons, pack_nil]
  omega
theorem sar (i : BitVec 3) (d : BitVec 5) (a : BitVec 5) (b : BitVec 5) : Statement (.sar i d a b) := by
  intro w h
  rw [← Option.some.inj h, pack_cons, pack_cons, pack_cons, pack_cons, pack_nil]
  omega
theorem sarImm (i : BitVec 3) (d : BitVec 5) (a : BitVec 5) (b : BitVec 5) (h : BitVec 1) : Statement (.sarImm i d a b h) := by
  intro w h
  rw [← Option.some.inj h, pack_cons, pack_cons, pack_cons, pack_cons, pack_cons, pack_nil]
  omega
theorem min (i : BitVec 3) (d : BitVec 5) (a : BitVec 5) (b : BitVec 5) (n : BitVec 1) : Statement (.min i d a b n) := by
  intro w h
  rw [← Option.some.inj h, pack_cons, pack_cons, pack_cons, pack_cons, pack_cons, pack_nil]
  omega
theorem max (i : BitVec 3) (d : BitVec 5) (a : BitVec 5) (b : BitVec 5) (n : BitVec 1) : Statement (.max i d a b n) := by
  intro w h
  rw [← Option.some.inj h, pack_cons, pack_cons, pack_cons, pack_cons, pack_cons, pack_nil]
  omega
theorem clz (i : BitVec 3) (d : BitVec 5) (a : BitVec 5) : Statement (.clz i d a) := by
  intro w h
  rw [← Option.some.inj h, pack_cons, pack_cons, pack_cons, pack_nil]
  omega
theorem popc (i : BitVec 3) (d : BitVec 5) (a : BitVec 5) : Statement (.popc i d a) := by
  intro w h
  rw [← Option.some.inj h, pack_cons, pack_cons, pack_cons, pack_nil]
  omega
theorem cmp (i : BitVec 3) (d : BitVec 5) (a : BitVec 5) (b : BitVec 5) (c : BitVec 5) : Statement (.cmp i d a b c) := by
  intro w h
  rw [← Option.some.inj h, pack_cons, pack_cons, pack_cons, pack_cons, pack_cons, pack_nil]
  omega
theorem sel (i : BitVec 3) (d : BitVec 5) (a : BitVec 5) (b : BitVec 5) (c : BitVec 5) : Statement (.sel i d a b c) := by
  intro w h
  rw [← Option.some.inj h, pack_cons, pack_cons, pack_cons, pack_cons, pack_cons, pack_nil]
  omega
theorem li (i : BitVec 3) (d : BitVec 5) (m : BitVec 15) : Statement (.li i d m) := by
  intro w h
  rw [← Option.some.inj h, pack_cons, pack_cons, pack_cons, pack_nil]
  omega
theorem lsi (i : BitVec 3) (d : BitVec 5) (m : BitVec 15) : Statement (.lsi i d m) := by
  intro w h
  rw [← Option.some.inj h, pack_cons, pack_cons, pack_cons, pack_nil]
  omega
theorem spt (i : BitVec 3) (d : BitVec 5) (a : BitVec 5) : Statement (.spt i d a) := by
  intro w h
  rw [← Option.some.inj h, pack_cons, pack_cons, pack_cons, pack_nil]
  omega
theorem spc (i : BitVec 3) (d : BitVec 5) (a : BitVec 5) (f : BitVec 1) : Statement (.spc i d a f) := by
  intro w h
  rw [← Option.some.inj h, pack_cons, pack_cons, pack_cons, pack_cons, pack_nil]
  omega
theorem loop (i : BitVec 3) (c : BitVec 9) (p : BitVec 10) : Statement (.loop i c p) := by
  intro w h
  rw [← Option.some.inj h, pack_cons, pack_cons, pack_cons, pack_nil]
  omega
theorem loopReg (i : BitVec 3) (j : BitVec 3) (p : BitVec 10) : Statement (.loopReg i j p) := by
  intro w h
  rw [← Option.some.inj h, pack_cons, pack_cons, pack_cons, pack_nil]
  omega
theorem endl (i : BitVec 3) : Statement (.endl i) := by
  intro w h
  rw [← Option.some.inj h, pack_cons, pack_nil]
  omega
theorem nop (i : BitVec 3) : Statement (.nop i) := by
  intro w h
  rw [← Option.some.inj h, pack_cons, pack_nil]
  omega
theorem halt (i : BitVec 3) : Statement (.halt i) := by
  intro w h
  rw [← Option.some.inj h, pack_cons, pack_nil]
  omega
theorem bfx (i : BitVec 3) (d : BitVec 5) (a : BitVec 5) (b : BitVec 5) (f : BitVec 1) : Statement (.bfx i d a b f) := by
  intro w h
  rw [← Option.some.inj h, pack_cons, pack_cons, pack_cons, pack_cons, pack_cons, pack_nil]
  omega
theorem bfi (i : BitVec 3) (d : BitVec 5) (a : BitVec 5) (b : BitVec 5) : Statement (.bfi i d a b) := by
  intro w h
  rw [← Option.some.inj h, pack_cons, pack_cons, pack_cons, pack_cons, pack_nil]
  omega
theorem gate (e : BitVec 3) (i : BitVec 3) : Statement (.gate e i) := by
  intro w h
  rw [← Option.some.inj h, pack_cons, pack_cons, pack_nil]
  omega
theorem wait (e : BitVec 3) (i : BitVec 3) (n : BitVec 20) : Statement (.wait e i n) := by
  intro w h
  rw [← Option.some.inj h, pack_cons, pack_cons, pack_cons, pack_nil]
  omega
theorem guard (e : BitVec 3) (r : BitVec 5) (b : BitVec 6) (v : BitVec 1) : Statement (.guard e r b v) := by
  intro w h
  rw [← Option.some.inj h, pack_cons, pack_cons, pack_cons, pack_cons, pack_nil]
  omega
theorem rmode (e : BitVec 3) (i : BitVec 3) (s : BitVec 1) (m : BitVec 3) : Statement (.rmode e i s m) := by
  intro w h
  rw [← Option.some.inj h, pack_cons, pack_cons, pack_cons, pack_cons, pack_nil]
  omega
theorem vadd (i : BitVec 3) (d : BitVec 4) (a : BitVec 4) (b : BitVec 5) (s : BitVec 1) (p : BitVec 1) (q : BitVec 1) (r : BitVec 1) (f : BitVec 1) : Statement (.vadd i d a b s p q r f) := by
  intro w h
  rw [← Option.some.inj h, pack_cons, pack_cons, pack_cons, pack_cons, pack_cons, pack_cons, pack_cons, pack_cons, pack_cons, pack_nil]
  omega
theorem vsub (i : BitVec 3) (d : BitVec 4) (a : BitVec 4) (b : BitVec 5) (s : BitVec 1) (p : BitVec 1) (q : BitVec 1) (r : BitVec 1) (f : BitVec 1) : Statement (.vsub i d a b s p q r f) := by
  intro w h
  rw [← Option.some.inj h, pack_cons, pack_cons, pack_cons, pack_cons, pack_cons, pack_cons, pack_cons, pack_cons, pack_cons, pack_nil]
  omega
theorem vmul (i : BitVec 3) (d : BitVec 4) (a : BitVec 4) (b : BitVec 5) (s : BitVec 1) (p : BitVec 1) (q : BitVec 1) (r : BitVec 1) (f : BitVec 1) : Statement (.vmul i d a b s p q r f) := by
  intro w h
  rw [← Option.some.inj h, pack_cons, pack_cons, pack_cons, pack_cons, pack_cons, pack_cons, pack_cons, pack_cons, pack_cons, pack_nil]
  omega
theorem vfma (i : BitVec 3) (d : BitVec 4) (a : BitVec 4) (b : BitVec 5) (s : BitVec 1) (p : BitVec 1) (q : BitVec 1) (r : BitVec 1) (f : BitVec 2) : Statement (.vfma i d a b s p q r f) := by
  intro w h
  rw [← Option.some.inj h, pack_cons, pack_cons, pack_cons, pack_cons, pack_cons, pack_cons, pack_cons, pack_cons, pack_cons, pack_nil]
  omega
theorem vmax (i : BitVec 3) (d : BitVec 4) (a : BitVec 4) (b : BitVec 5) (s : BitVec 1) (p : BitVec 1) (q : BitVec 1) (r : BitVec 1) : Statement (.vmax i d a b s p q r) := by
  intro w h
  rw [← Option.some.inj h, pack_cons, pack_cons, pack_cons, pack_cons, pack_cons, pack_cons, pack_cons, pack_cons, pack_nil]
  omega
theorem vmin (i : BitVec 3) (d : BitVec 4) (a : BitVec 4) (b : BitVec 5) (s : BitVec 1) (p : BitVec 1) (q : BitVec 1) (r : BitVec 1) : Statement (.vmin i d a b s p q r) := by
  intro w h
  rw [← Option.some.inj h, pack_cons, pack_cons, pack_cons, pack_cons, pack_cons, pack_cons, pack_cons, pack_cons, pack_nil]
  omega
theorem vabs (i : BitVec 3) (d : BitVec 4) (a : BitVec 4) (p : BitVec 1) (q : BitVec 1) (f : BitVec 1) : Statement (.vabs i d a p q f) := by
  intro w h
  rw [← Option.some.inj h, pack_cons, pack_cons, pack_cons, pack_cons, pack_cons, pack_cons, pack_nil]
  omega
theorem vneg (i : BitVec 3) (d : BitVec 4) (a : BitVec 4) (p : BitVec 1) (q : BitVec 1) (f : BitVec 1) : Statement (.vneg i d a p q f) := by
  intro w h
  rw [← Option.some.inj h, pack_cons, pack_cons, pack_cons, pack_cons, pack_cons, pack_cons, pack_nil]
  omega
theorem vand (i : BitVec 3) (d : BitVec 4) (a : BitVec 4) (b : BitVec 5) (s : BitVec 1) (p : BitVec 1) (q : BitVec 1) (r : BitVec 1) : Statement (.vand i d a b s p q r) := by
  intro w h
  rw [← Option.some.inj h, pack_cons, pack_cons, pack_cons, pack_cons, pack_cons, pack_cons, pack_cons, pack_cons, pack_nil]
  omega
theorem vor (i : BitVec 3) (d : BitVec 4) (a : BitVec 4) (b : BitVec 5) (s : BitVec 1) (p : BitVec 1) (q : BitVec 1) (r : BitVec 1) : Statement (.vor i d a b s p q r) := by
  intro w h
  rw [← Option.some.inj h, pack_cons, pack_cons, pack_cons, pack_cons, pack_cons, pack_cons, pack_cons, pack_cons, pack_nil]
  omega
theorem vxor (i : BitVec 3) (d : BitVec 4) (a : BitVec 4) (b : BitVec 5) (s : BitVec 1) (p : BitVec 1) (q : BitVec 1) (r : BitVec 1) : Statement (.vxor i d a b s p q r) := by
  intro w h
  rw [← Option.some.inj h, pack_cons, pack_cons, pack_cons, pack_cons, pack_cons, pack_cons, pack_cons, pack_cons, pack_nil]
  omega
theorem vshl (i : BitVec 3) (d : BitVec 4) (a : BitVec 4) (b : BitVec 5) (s : BitVec 1) (p : BitVec 1) (q : BitVec 1) (r : BitVec 1) : Statement (.vshl i d a b s p q r) := by
  intro w h
  rw [← Option.some.inj h, pack_cons, pack_cons, pack_cons, pack_cons, pack_cons, pack_cons, pack_cons, pack_cons, pack_nil]
  omega
theorem vshr (i : BitVec 3) (d : BitVec 4) (a : BitVec 4) (b : BitVec 5) (s : BitVec 1) (p : BitVec 1) (q : BitVec 1) (r : BitVec 1) (f : BitVec 1) : Statement (.vshr i d a b s p q r f) := by
  intro w h
  rw [← Option.some.inj h, pack_cons, pack_cons, pack_cons, pack_cons, pack_cons, pack_cons, pack_cons, pack_cons, pack_cons, pack_nil]
  omega
theorem vcmp (i : BitVec 3) (d : BitVec 4) (a : BitVec 4) (b : BitVec 5) (s : BitVec 1) (p : BitVec 1) (q : BitVec 1) (r : BitVec 1) (f : BitVec 3) : Statement (.vcmp i d a b s p q r f) := by
  intro w h
  rw [← Option.some.inj h, pack_cons, pack_cons, pack_cons, pack_cons, pack_cons, pack_cons, pack_cons, pack_cons, pack_cons, pack_nil]
  omega
theorem vsel (i : BitVec 3) (d : BitVec 4) (a : BitVec 4) (b : BitVec 5) (s : BitVec 1) (p : BitVec 1) (q : BitVec 1) (r : BitVec 1) : Statement (.vsel i d a b s p q r) := by
  intro w h
  rw [← Option.some.inj h, pack_cons, pack_cons, pack_cons, pack_cons, pack_cons, pack_cons, pack_cons, pack_cons, pack_nil]
  omega
theorem vred (i : BitVec 3) (d : BitVec 4) (a : BitVec 4) (p : BitVec 1) (q : BitVec 1) (f : BitVec 3) : Statement (.vred i d a p q f) := by
  intro w h
  rw [← Option.some.inj h, pack_cons, pack_cons, pack_cons, pack_cons, pack_cons, pack_cons, pack_nil]
  omega
theorem vscan (i : BitVec 3) (d : BitVec 4) (a : BitVec 4) (p : BitVec 1) (q : BitVec 1) (f : BitVec 2) : Statement (.vscan i d a p q f) := by
  intro w h
  rw [← Option.some.inj h, pack_cons, pack_cons, pack_cons, pack_cons, pack_cons, pack_cons, pack_nil]
  omega
theorem vbcast (i : BitVec 3) (d : BitVec 4) (a : BitVec 4) (b : BitVec 5) (p : BitVec 1) (q : BitVec 1) : Statement (.vbcast i d a b p q) := by
  intro w h
  rw [← Option.some.inj h, pack_cons, pack_cons, pack_cons, pack_cons, pack_cons, pack_cons, pack_nil]
  omega
theorem viota (i : BitVec 3) (d : BitVec 4) (b : BitVec 5) (p : BitVec 1) : Statement (.viota i d b p) := by
  intro w h
  rw [← Option.some.inj h, pack_cons, pack_cons, pack_cons, pack_cons, pack_nil]
  omega
theorem vperm (i : BitVec 3) (d : BitVec 4) (a : BitVec 4) (b : BitVec 5) (s : BitVec 1) (p : BitVec 1) (q : BitVec 1) (r : BitVec 1) : Statement (.vperm i d a b s p q r) := by
  intro w h
  rw [← Option.some.inj h, pack_cons, pack_cons, pack_cons, pack_cons, pack_cons, pack_cons, pack_cons, pack_cons, pack_nil]
  omega
theorem vsortk (i : BitVec 3) (d : BitVec 4) (a : BitVec 4) (b : BitVec 4) (p : BitVec 1) (q : BitVec 1) (r : BitVec 1) (f : BitVec 1) : Statement (.vsortk i d a b p q r f) := by
  intro w h
  rw [← Option.some.inj h, pack_cons, pack_cons, pack_cons, pack_cons, pack_cons, pack_cons, pack_cons, pack_cons, pack_nil]
  omega
theorem vsegr (i : BitVec 3) (d : BitVec 4) (a : BitVec 4) (b : BitVec 4) (p : BitVec 1) (q : BitVec 1) (r : BitVec 1) (f : BitVec 2) : Statement (.vsegr i d a b p q r f) := by
  intro w h
  rw [← Option.some.inj h, pack_cons, pack_cons, pack_cons, pack_cons, pack_cons, pack_cons, pack_cons, pack_cons, pack_nil]
  omega
theorem vexp2 (i : BitVec 3) (d : BitVec 4) (a : BitVec 4) (p : BitVec 1) (q : BitVec 1) : Statement (.vexp2 i d a p q) := by
  intro w h
  rw [← Option.some.inj h, pack_cons, pack_cons, pack_cons, pack_cons, pack_cons, pack_nil]
  omega
theorem vrcp (i : BitVec 3) (d : BitVec 4) (a : BitVec 4) (p : BitVec 1) (q : BitVec 1) : Statement (.vrcp i d a p q) := by
  intro w h
  rw [← Option.some.inj h, pack_cons, pack_cons, pack_cons, pack_cons, pack_cons, pack_nil]
  omega
theorem vrsq (i : BitVec 3) (d : BitVec 4) (a : BitVec 4) (p : BitVec 1) (q : BitVec 1) : Statement (.vrsq i d a p q) := by
  intro w h
  rw [← Option.some.inj h, pack_cons, pack_cons, pack_cons, pack_cons, pack_cons, pack_nil]
  omega
theorem vcvt (i : BitVec 3) (d : BitVec 4) (a : BitVec 4) (p : BitVec 1) (q : BitVec 1) (f : BitVec 1) : Statement (.vcvt i d a p q f) := by
  intro w h
  rw [← Option.some.inj h, pack_cons, pack_cons, pack_cons, pack_cons, pack_cons, pack_cons, pack_nil]
  omega
theorem vrnd (i : BitVec 3) (d : BitVec 4) (a : BitVec 4) (p : BitVec 1) (q : BitVec 1) : Statement (.vrnd i d a p q) := by
  intro w h
  rw [← Option.some.inj h, pack_cons, pack_cons, pack_cons, pack_cons, pack_cons, pack_nil]
  omega
theorem vmov (i : BitVec 3) (d : BitVec 4) (a : BitVec 4) (p : BitVec 1) (q : BitVec 1) : Statement (.vmov i d a p q) := by
  intro w h
  rw [← Option.some.inj h, pack_cons, pack_cons, pack_cons, pack_cons, pack_cons, pack_nil]
  omega
theorem vmovScalar (i : BitVec 3) (d : BitVec 4) (b : BitVec 5) (p : BitVec 1) : Statement (.vmovScalar i d b p) := by
  intro w h
  rw [← Option.some.inj h, pack_cons, pack_cons, pack_cons, pack_cons, pack_nil]
  omega
theorem vtmg (i : BitVec 3) (d : BitVec 4) (a : BitVec 4) (b : BitVec 4) (p : BitVec 1) (q : BitVec 1) (r : BitVec 1) : Statement (.vtmg i d a b p q r) := by
  intro w h
  rw [← Option.some.inj h, pack_cons, pack_cons, pack_cons, pack_cons, pack_cons, pack_cons, pack_cons, pack_nil]
  omega
theorem mwld (i : BitVec 3) (k : BitVec 4) (r : BitVec 7) : Statement (.mwld i k r) := by
  intro w h
  rw [← Option.some.inj h, pack_cons, pack_cons, pack_cons, pack_nil]
  omega
theorem mswp (i : BitVec 3) : Statement (.mswp i) := by
  intro w h
  rw [← Option.some.inj h, pack_cons, pack_nil]
  omega
theorem mfwd (i : BitVec 3) (a : BitVec 2) (k : BitVec 4) (r : BitVec 7) : Statement (.mfwd i a k r) := by
  intro w h
  rw [← Option.some.inj h, pack_cons, pack_cons, pack_cons, pack_cons, pack_nil]
  omega
theorem mbwd (i : BitVec 3) (a : BitVec 2) (k : BitVec 4) (r : BitVec 7) : Statement (.mbwd i a k r) := by
  intro w h
  rw [← Option.some.inj h, pack_cons, pack_cons, pack_cons, pack_cons, pack_nil]
  omega
theorem mhad (i : BitVec 3) (k : BitVec 4) (n : BitVec 1) (d : BitVec 4) : Statement (.mhad i k n d) := by
  intro w h
  rw [← Option.some.inj h, pack_cons, pack_cons, pack_cons, pack_cons, pack_nil]
  omega
theorem mqnt (i : BitVec 3) (k : BitVec 4) (n : BitVec 1) (d : BitVec 4) : Statement (.mqnt i k n d) := by
  intro w h
  rw [← Option.some.inj h, pack_cons, pack_cons, pack_cons, pack_cons, pack_nil]
  omega
theorem mdrn (i : BitVec 3) (a : BitVec 2) (k : BitVec 4) (r : BitVec 7) (v : BitVec 1) (z : BitVec 1) : Statement (.mdrn i a k r v z) := by
  intro w h
  rw [← Option.some.inj h, pack_cons, pack_cons, pack_cons, pack_cons, pack_cons, pack_cons, pack_nil]
  omega
theorem mclr (i : BitVec 3) (a : BitVec 2) (r : BitVec 7) : Statement (.mclr i a r) := by
  intro w h
  rw [← Option.some.inj h, pack_cons, pack_cons, pack_cons, pack_nil]
  omega
theorem tcfg (i : BitVec 3) (x1 : BitVec 4) (y : BitVec 5) : Statement (.tcfg i x1 y) := by
  intro w h
  rw [← Option.some.inj h, pack_cons, pack_cons, pack_cons, pack_nil]
  omega
theorem tzero (i : BitVec 3) (x1 : BitVec 4) : Statement (.tzero i x1) := by
  intro w h
  rw [← Option.some.inj h, pack_cons, pack_cons, pack_nil]
  omega
theorem trmov (i : BitVec 3) (x1 : BitVec 4) (y : BitVec 4) (q : BitVec 1) (p : BitVec 1) : Statement (.trmov i x1 y q p) := by
  intro w h
  rw [← Option.some.inj h, pack_cons, pack_cons, pack_cons, pack_cons, pack_cons, pack_nil]
  omega
theorem trmovRows (i : BitVec 3) (x1 : BitVec 4) (y : BitVec 4) (z : BitVec 5) : Statement (.trmovRows i x1 y z) := by
  intro w h
  rw [← Option.some.inj h, pack_cons, pack_cons, pack_cons, pack_cons, pack_nil]
  omega
theorem tcmov (i : BitVec 3) (x1 : BitVec 4) (y : BitVec 4) (z : BitVec 5) : Statement (.tcmov i x1 y z) := by
  intro w h
  rw [← Option.some.inj h, pack_cons, pack_cons, pack_cons, pack_cons, pack_nil]
  omega
theorem ttr (i : BitVec 3) (x1 : BitVec 4) (y : BitVec 4) : Statement (.ttr i x1 y) := by
  intro w h
  rw [← Option.some.inj h, pack_cons, pack_cons, pack_cons, pack_nil]
  omega
theorem tldv (i : BitVec 3) (x1 : BitVec 4) (y : BitVec 5) : Statement (.tldv i x1 y) := by
  intro w h
  rw [← Option.some.inj h, pack_cons, pack_cons, pack_cons, pack_nil]
  omega
theorem tmkv (i : BitVec 3) (x1 : BitVec 5) (y : BitVec 4) : Statement (.tmkv i x1 y) := by
  intro w h
  rw [← Option.some.inj h, pack_cons, pack_cons, pack_cons, pack_nil]
  omega
theorem dup (i : BitVec 3) (x1 : BitVec 5) (y : BitVec 5) : Statement (.dup i x1 y) := by
  intro w h
  rw [← Option.some.inj h, pack_cons, pack_cons, pack_cons, pack_nil]
  omega
theorem drop (i : BitVec 3) (y : BitVec 5) : Statement (.drop i y) := by
  intro w h
  rw [← Option.some.inj h, pack_cons, pack_cons, pack_nil]
  omega
theorem reuse (i : BitVec 3) (y : BitVec 5) : Statement (.reuse i y) := by
  intro w h
  rw [← Option.some.inj h, pack_cons, pack_cons, pack_nil]
  omega
theorem upd (i : BitVec 3) (x1 : BitVec 5) (y : BitVec 5) (z : BitVec 5) : Statement (.upd i x1 y z) := by
  intro w h
  rw [← Option.some.inj h, pack_cons, pack_cons, pack_cons, pack_cons, pack_nil]
  omega
theorem updr (i : BitVec 3) (x1 : BitVec 5) (y : BitVec 5) (z : BitVec 4) (f : BitVec 1) : Statement (.updr i x1 y z f) := by
  intro w h
  rw [← Option.some.inj h, pack_cons, pack_cons, pack_cons, pack_cons, pack_cons, pack_nil]
  omega
theorem cnt (i : BitVec 3) (x1 : BitVec 5) (y : BitVec 5) : Statement (.cnt i x1 y) := by
  intro w h
  rw [← Option.some.inj h, pack_cons, pack_cons, pack_cons, pack_nil]
  omega
theorem ld (i : BitVec 3) (d : BitVec 5) (b : BitVec 5) (x1 : BitVec 5) (p : BitVec 2) (g : BitVec 1) (z : BitVec 2) : Statement (.ld i d b x1 p g z) := by
  intro w h
  rw [← Option.some.inj h, pack_cons, pack_cons, pack_cons, pack_cons, pack_cons, pack_cons, pack_cons, pack_nil]
  omega
theorem ldg (i : BitVec 3) (d : BitVec 5) (b : BitVec 5) (x1 : BitVec 5) (g : BitVec 1) (z : BitVec 2) : Statement (.ldg i d b x1 g z) := by
  intro w h
  rw [← Option.some.inj h, pack_cons, pack_cons, pack_cons, pack_cons, pack_cons, pack_cons, pack_nil]
  omega
theorem ldt (i : BitVec 3) (d : BitVec 4) (b : BitVec 5) (x1 : BitVec 5) (p : BitVec 2) (v : BitVec 1) (t : BitVec 1) : Statement (.ldt i d b x1 p v t) := by
  intro w h
  rw [← Option.some.inj h, pack_cons, pack_cons, pack_cons, pack_cons, pack_cons, pack_cons, pack_cons, pack_nil]
  omega
theorem ldr (i : BitVec 3) (d : BitVec 4) (b : BitVec 5) (x1 : BitVec 5) (p : BitVec 2) (n : BitVec 1) : Statement (.ldr i d b x1 p n) := by
  intro w h
  rw [← Option.some.inj h, pack_cons, pack_cons, pack_cons, pack_cons, pack_cons, pack_cons, pack_nil]
  omega
theorem ldtr (i : BitVec 3) (d : BitVec 4) (b : BitVec 5) (x1 : BitVec 5) : Statement (.ldtr i d b x1) := by
  intro w h
  rw [← Option.some.inj h, pack_cons, pack_cons, pack_cons, pack_cons, pack_nil]
  omega
theorem gth (i : BitVec 3) (d : BitVec 4) (b : BitVec 5) (l : BitVec 5) (p : BitVec 2) : Statement (.gth i d b l p) := by
  intro w h
  rw [← Option.some.inj h, pack_cons, pack_cons, pack_cons, pack_cons, pack_cons, pack_nil]
  omega
theorem ldv (i : BitVec 3) (d : BitVec 5) (b : BitVec 5) (h : BitVec 5) (p : BitVec 2) : Statement (.ldv i d b h p) := by
  intro w h
  rw [← Option.some.inj h, pack_cons, pack_cons, pack_cons, pack_cons, pack_cons, pack_nil]
  omega
theorem st (i : BitVec 3) (s : BitVec 5) (b : BitVec 5) (x1 : BitVec 5) (p : BitVec 2) (z : BitVec 2) : Statement (.st i s b x1 p z) := by
  intro w h
  rw [← Option.some.inj h, pack_cons, pack_cons, pack_cons, pack_cons, pack_cons, pack_cons, pack_nil]
  omega
theorem stg (i : BitVec 3) (s : BitVec 5) (b : BitVec 5) (x1 : BitVec 5) (z : BitVec 2) : Statement (.stg i s b x1 z) := by
  intro w h
  rw [← Option.some.inj h, pack_cons, pack_cons, pack_cons, pack_cons, pack_cons, pack_nil]
  omega
theorem stt (i : BitVec 3) (s : BitVec 4) (b : BitVec 5) (x1 : BitVec 5) (p : BitVec 2) (n : BitVec 1) : Statement (.stt i s b x1 p n) := by
  intro w h
  rw [← Option.some.inj h, pack_cons, pack_cons, pack_cons, pack_cons, pack_cons, pack_cons, pack_nil]
  omega
theorem stv (i : BitVec 3) (s : BitVec 5) (b : BitVec 5) (x1 : BitVec 5) : Statement (.stv i s b x1) := by
  intro w h
  rw [← Option.some.inj h, pack_cons, pack_cons, pack_cons, pack_cons, pack_nil]
  omega
theorem sct (i : BitVec 3) (s : BitVec 4) (b : BitVec 5) (l : BitVec 5) (p : BitVec 2) : Statement (.sct i s b l p) := by
  intro w h
  rw [← Option.some.inj h, pack_cons, pack_cons, pack_cons, pack_cons, pack_cons, pack_nil]
  omega
theorem red (i : BitVec 3) (s : BitVec 5) (b : BitVec 5) (x1 : BitVec 5) (o : BitVec 3) : Statement (.red i s b x1 o) := by
  intro w h
  rw [← Option.some.inj h, pack_cons, pack_cons, pack_cons, pack_cons, pack_cons, pack_nil]
  omega
theorem redRow (i : BitVec 3) (s : BitVec 4) (b : BitVec 5) (x1 : BitVec 5) (n : BitVec 1) (o : BitVec 3) : Statement (.redRow i s b x1 n o) := by
  intro w h
  rw [← Option.some.inj h, pack_cons, pack_cons, pack_cons, pack_cons, pack_cons, pack_cons, pack_nil]
  omega
theorem kva (i : BitVec 3) (d : BitVec 5) (b : BitVec 5) (k : BitVec 5) : Statement (.kva i d b k) := by
  intro w h
  rw [← Option.some.inj h, pack_cons, pack_cons, pack_cons, pack_cons, pack_nil]
  omega
theorem kvr (i : BitVec 3) (d : BitVec 5) (a : BitVec 5) (k : BitVec 5) (o : BitVec 2) : Statement (.kvr i d a k o) := by
  intro w h
  rw [← Option.some.inj h, pack_cons, pack_cons, pack_cons, pack_cons, pack_cons, pack_nil]
  omega
theorem bws (i : BitVec 3) (s : BitVec 4) (g : BitVec 5) : Statement (.bws i s g) := by
  intro w h
  rw [← Option.some.inj h, pack_cons, pack_cons, pack_cons, pack_nil]
  omega
theorem bwc (i : BitVec 3) (g : BitVec 5) : Statement (.bwc i g) := by
  intro w h
  rw [← Option.some.inj h, pack_cons, pack_cons, pack_nil]
  omega
theorem bwa (i : BitVec 3) (g : BitVec 5) : Statement (.bwa i g) := by
  intro w h
  rw [← Option.some.inj h, pack_cons, pack_cons, pack_nil]
  omega
theorem fence (i : BitVec 3) (c : BitVec 3) (o : BitVec 2) : Statement (.fence i c o) := by
  intro w h
  rw [← Option.some.inj h, pack_cons, pack_cons, pack_cons, pack_nil]
  omega
theorem ldaq (i : BitVec 3) (d : BitVec 5) (a : BitVec 5) (g : BitVec 1) (z : BitVec 2) (c : BitVec 3) (o : BitVec 2) : Statement (.ldaq i d a g z c o) := by
  intro w h
  rw [← Option.some.inj h, pack_cons, pack_cons, pack_cons, pack_cons, pack_cons, pack_cons, pack_cons, pack_nil]
  omega
theorem strl (i : BitVec 3) (z : BitVec 2) (a : BitVec 5) (b : BitVec 5) (c : BitVec 3) (o : BitVec 2) : Statement (.strl i z a b c o) := by
  intro w h
  rw [← Option.some.inj h, pack_cons, pack_cons, pack_cons, pack_cons, pack_cons, pack_cons, pack_nil]
  omega
theorem atom (i : BitVec 3) (d : BitVec 5) (a : BitVec 5) (x1 : BitVec 1) (p : BitVec 4) (c : BitVec 3) (o : BitVec 2) : Statement (.atom i d a x1 p c o) := by
  intro w h
  rw [← Option.some.inj h, pack_cons, pack_cons, pack_cons, pack_cons, pack_cons, pack_cons, pack_cons, pack_nil]
  omega
theorem cas (i : BitVec 3) (d : BitVec 5) (a : BitVec 5) (b : BitVec 5) (c : BitVec 3) (o : BitVec 2) : Statement (.cas i d a b c o) := by
  intro w h
  rw [← Option.some.inj h, pack_cons, pack_cons, pack_cons, pack_cons, pack_cons, pack_cons, pack_nil]
  omega
theorem rlk (i : BitVec 3) (a : BitVec 5) (c : BitVec 3) (o : BitVec 2) : Statement (.rlk i a c o) := by
  intro w h
  rw [← Option.some.inj h, pack_cons, pack_cons, pack_cons, pack_cons, pack_nil]
  omega
theorem rul (i : BitVec 3) (a : BitVec 5) (c : BitVec 3) (o : BitVec 2) : Statement (.rul i a c o) := by
  intro w h
  rw [← Option.some.inj h, pack_cons, pack_cons, pack_cons, pack_cons, pack_nil]
  omega
theorem wlk (i : BitVec 3) (a : BitVec 5) (c : BitVec 3) (o : BitVec 2) : Statement (.wlk i a c o) := by
  intro w h
  rw [← Option.some.inj h, pack_cons, pack_cons, pack_cons, pack_cons, pack_nil]
  omega
theorem wul (i : BitVec 3) (a : BitVec 5) (c : BitVec 3) (o : BitVec 2) : Statement (.wul i a c o) := by
  intro w h
  rw [← Option.some.inj h, pack_cons, pack_cons, pack_cons, pack_cons, pack_nil]
  omega
theorem bar (i : BitVec 3) (a : BitVec 5) (c : BitVec 3) (o : BitVec 2) : Statement (.bar i a c o) := by
  intro w h
  rw [← Option.some.inj h, pack_cons, pack_cons, pack_cons, pack_cons, pack_nil]
  omega
theorem sigf (i : BitVec 3) (f : BitVec 5) (a : BitVec 5) (c : BitVec 3) (o : BitVec 2) : Statement (.sigf i f a c o) := by
  intro w h
  rw [← Option.some.inj h, pack_cons, pack_cons, pack_cons, pack_cons, pack_cons, pack_nil]
  omega
theorem waitf (i : BitVec 3) (f : BitVec 5) (a : BitVec 5) (c : BitVec 3) (o : BitVec 2) : Statement (.waitf i f a c o) := by
  intro w h
  rw [← Option.some.inj h, pack_cons, pack_cons, pack_cons, pack_cons, pack_cons, pack_nil]
  omega
theorem rres (i : BitVec 3) (d : BitVec 5) (k : BitVec 4) : Statement (.rres i d k) := by
  intro w h
  rw [← Option.some.inj h, pack_cons, pack_cons, pack_cons, pack_nil]
  omega
theorem rpub (i : BitVec 3) (a : BitVec 5) (k : BitVec 4) : Statement (.rpub i a k) := by
  intro w h
  rw [← Option.some.inj h, pack_cons, pack_cons, pack_cons, pack_nil]
  omega
theorem rcon (i : BitVec 3) (d : BitVec 5) (k : BitVec 4) : Statement (.rcon i d k) := by
  intro w h
  rw [← Option.some.inj h, pack_cons, pack_cons, pack_cons, pack_nil]
  omega
theorem rrel (i : BitVec 3) (a : BitVec 5) (k : BitVec 4) : Statement (.rrel i a k) := by
  intro w h
  rw [← Option.some.inj h, pack_cons, pack_cons, pack_cons, pack_nil]
  omega
theorem fill (i : BitVec 3) (a : BitVec 5) (b : BitVec 5) (c : BitVec 3) (o : BitVec 2) : Statement (.fill i a b c o) := by
  intro w h
  rw [← Option.some.inj h, pack_cons, pack_cons, pack_cons, pack_cons, pack_cons, pack_nil]
  omega
theorem take (i : BitVec 3) (d : BitVec 5) (a : BitVec 5) (c : BitVec 3) (o : BitVec 2) : Statement (.take i d a c o) := by
  intro w h
  rw [← Option.some.inj h, pack_cons, pack_cons, pack_cons, pack_cons, pack_cons, pack_nil]
  omega
theorem spawn (i : BitVec 3) (d : BitVec 5) (a : BitVec 5) (b : BitVec 5) : Statement (.spawn i d a b) := by
  intro w h
  rw [← Option.some.inj h, pack_cons, pack_cons, pack_cons, pack_cons, pack_nil]
  omega
theorem rfence (i : BitVec 3) : Statement (.rfence i) := by
  intro w h
  rw [← Option.some.inj h, pack_cons, pack_nil]
  omega
theorem send (i : BitVec 3) (t : BitVec 4) (h : BitVec 2) (j : BitVec 2) (k : BitVec 2) (l : BitVec 2) (m : BitVec 2) (n : BitVec 2) (o : BitVec 2) (p : BitVec 2) : Statement (.send i t h j k l m n o p) := by
  intro w h
  rw [← Option.some.inj h, pack_cons, pack_cons, pack_cons, pack_cons, pack_cons, pack_cons, pack_cons, pack_cons, pack_cons, pack_cons, pack_nil]
  omega
theorem csrr (i : BitVec 3) (d : BitVec 5) (n : BitVec 15) : Statement (.csrr i d n) := by
  intro w h
  rw [← Option.some.inj h, pack_cons, pack_cons, pack_cons, pack_nil]
  omega
theorem csrw (i : BitVec 3) (a : BitVec 5) (n : BitVec 15) : Statement (.csrw i a n) := by
  intro w h
  rw [← Option.some.inj h, pack_cons, pack_cons, pack_cons, pack_nil]
  omega
theorem trap (i : BitVec 3) (m : BitVec 15) : Statement (.trap i m) := by
  intro w h
  rw [← Option.some.inj h, pack_cons, pack_cons, pack_nil]
  omega
theorem reth (i : BitVec 3) (a : BitVec 5) : Statement (.reth i a) := by
  intro w h
  rw [← Option.some.inj h, pack_cons, pack_cons, pack_nil]
  omega
theorem fmtw (i : BitVec 3) (a : BitVec 5) : Statement (.fmtw i a) := by
  intro w h
  rw [← Option.some.inj h, pack_cons, pack_cons, pack_nil]
  omega
theorem ecmd (i : BitVec 3) (a : BitVec 5) : Statement (.ecmd i a) := by
  intro w h
  rw [← Option.some.inj h, pack_cons, pack_cons, pack_nil]
  omega
theorem chl (i : BitVec 3) (a : BitVec 5) (j : BitVec 3) : Statement (.chl i a j) := by
  intro w h
  rw [← Option.some.inj h, pack_cons, pack_cons, pack_cons, pack_nil]
  omega
theorem chk (i : BitVec 3) (j : BitVec 3) : Statement (.chk i j) := by
  intro w h
  rw [← Option.some.inj h, pack_cons, pack_cons, pack_nil]
  omega
theorem chkStop (i : BitVec 3) (j : BitVec 3) : Statement (.chkStop i j) := by
  intro w h
  rw [← Option.some.inj h, pack_cons, pack_cons, pack_nil]
  omega
theorem aqp (i : BitVec 3) (a : BitVec 5) (b : BitVec 1) : Statement (.aqp i a b) := by
  intro w h
  rw [← Option.some.inj h, pack_cons, pack_cons, pack_cons, pack_nil]
  omega
theorem kvtl (i : BitVec 3) (a : BitVec 5) (l : BitVec 1) (n : BitVec 4) : Statement (.kvtl i a l n) := by
  intro w h
  rw [← Option.some.inj h, pack_cons, pack_cons, pack_cons, pack_cons, pack_nil]
  omega
theorem kvtu (i : BitVec 3) (n : BitVec 4) : Statement (.kvtu i n) := by
  intro w h
  rw [← Option.some.inj h, pack_cons, pack_cons, pack_nil]
  omega
theorem bwo (i : BitVec 3) (a : BitVec 5) (d : BitVec 5) : Statement (.bwo i a d) := by
  intro w h
  rw [← Option.some.inj h, pack_cons, pack_cons, pack_cons, pack_nil]
  omega
theorem opts (i : BitVec 3) (a : BitVec 5) : Statement (.opts i a) := by
  intro w h
  rw [← Option.some.inj h, pack_cons, pack_cons, pack_nil]
  omega
theorem ckpt (i : BitVec 3) (a : BitVec 5) : Statement (.ckpt i a) := by
  intro w h
  rw [← Option.some.inj h, pack_cons, pack_cons, pack_nil]
  omega
theorem talign (i : BitVec 3) (a : BitVec 5) : Statement (.talign i a) := by
  intro w h
  rw [← Option.some.inj h, pack_cons, pack_cons, pack_nil]
  omega
theorem talignM (i : BitVec 3) (a : BitVec 5) : Statement (.talignM i a) := by
  intro w h
  rw [← Option.some.inj h, pack_cons, pack_cons, pack_nil]
  omega
theorem bar2Access (vf : Nat) (off : Nat) (write : Bool) (data : List Byte) : Statement (.bar2Access vf off write data) := nofun
theorem fetch (core : Nat) : Statement (.fetch core) := nofun
theorem illegalWord (core : Nat) (e : Nat) (code : Byte) (info : W64) : Statement (.illegalWord core e code info) := nofun
theorem timedFlitArrival : Statement (.timedFlitArrival) := nofun
theorem nearMemoryAck : Statement (.nearMemoryAck) := nofun
theorem flrPf0 : Statement (.flrPf0) := nofun
theorem redRecordApply : Statement (.redRecordApply) := nofun
theorem kvAppend : Statement (.kvAppend) := nofun
theorem kvRescale : Statement (.kvRescale) := nofun
theorem kvFork : Statement (.kvFork) := nofun
theorem kvRelease : Statement (.kvRelease) := nofun
theorem pageScanQueued : Statement (.pageScanQueued) := nofun
theorem pageScanStart : Statement (.pageScanStart) := nofun
theorem resultRecordLanding : Statement (.resultRecordLanding) := nofun
theorem groupOpen : Statement (.groupOpen) := nofun
theorem bwsAccept : Statement (.bwsAccept) := nofun
theorem bwcAccept : Statement (.bwcAccept) := nofun
theorem bwaAccept : Statement (.bwaAccept) := nofun
theorem phaseTwo : Statement (.phaseTwo) := nofun
theorem groupCompletion : Statement (.groupCompletion) := nofun
theorem groupExpiry : Statement (.groupExpiry) := nofun
theorem optsStep : Statement (.optsStep) := nofun
theorem sendArrival : Statement (.sendArrival) := nofun
theorem flagSignalArrival : Statement (.flagSignalArrival) := nofun
theorem barrierArrival : Statement (.barrierArrival) := nofun

end Sys2Proof.Laws.Encoded
end

