-- ==== Sys2Proof/Laws/Sealed.lean ====
section
/-!
SUPPORT. Encrypted lines: a number's bytes and their number agree, an entry put is found, and a line stored under
a key slot reads back under it (R66).
-/

namespace Sys2Proof

theorem Sparse.find_append {α : Type} (xs ys : Sparse α) (a : Nat) (h : a ∉ xs.map Prod.fst) :
    Sparse.find (xs ++ ys) a = Sparse.find ys a := by
  induction xs with
  | nil => rfl
  | cons x xs ih =>
    obtain ⟨k, v⟩ := x
    simp only [List.map_cons, List.mem_cons, not_or] at h
    simp only [List.cons_append, Sparse.find, if_neg (Ne.symm h.1), ih h.2]

/-- An entry just stored is found. -/
theorem Sparse.find_put {α : Type} (m : Sparse α) (k : Nat) (v : α) : (m.put k v).find k = some v := by
  unfold Sparse.put
  rw [Sparse.find_append _ _ _ (by simp), Sparse.find, if_pos rfl]


namespace Machine

@[simp] theorem bytesOfNat_length (n v : Nat) : (bytesOfNat n v).length = n := by
  induction n generalizing v with
  | zero => rfl
  | succ n ih => simp [bytesOfNat, ih]

theorem natOfBytes_bytesOfNat (n v : Nat) : natOfBytes (bytesOfNat n v) = v % 256 ^ n := by
  induction n generalizing v with
  | zero => simp [bytesOfNat, natOfBytes, Nat.mod_one]
  | succ n ih =>
    have h : v % 256 ^ (n + 1) = v % 256 + 256 * (v / 256 % 256 ^ n) := by
      rw [Nat.pow_succ, Nat.mul_comm (256 ^ n) 256, Nat.mod_mul]
    rw [h, bytesOfNat, natOfBytes, ih, BitVec.toNat_ofNat]

theorem bytesOfNat_natOfBytes (bs : List Byte) : bytesOfNat bs.length (natOfBytes bs) = bs := by
  induction bs with
  | nil => rfl
  | cons b bs ih =>
    have h1 : BitVec.ofNat 8 (b.toNat + 256 * natOfBytes bs) = b := by
      apply BitVec.eq_of_toNat_eq
      simp only [BitVec.toNat_ofNat]
      have := b.isLt
      omega
    have h2 : (b.toNat + 256 * natOfBytes bs) / 256 = natOfBytes bs := by
      have := b.isLt
      omega
    simp only [List.length_cons, bytesOfNat, natOfBytes, h1, h2, ih]

theorem natOfBytes_lt (bs : List Byte) : natOfBytes bs < 256 ^ bs.length := by
  induction bs with
  | nil => simp [natOfBytes]
  | cons b bs ih =>
    have := b.isLt
    simp only [natOfBytes, List.length_cons, Nat.pow_succ]
    omega

/-- A line stored under a slot's key reads back under it (R66). -/
theorem openLine_sealLine (s : State) (slot line : Nat) (bs : List Byte) (h : bs.length = 64) :
    (s.sealLine slot line bs).openLine slot line = bs := by
  have hk : (s.sealLine slot line bs).slotKey slot = s.slotKey slot := rfl
  have hr : ∀ v : BitVec 512, BitVec.ofNat 512 (natOfBytes (bytesOfNat 64 v.toNat)) = v := fun v => by
    rw [natOfBytes_bytesOfNat]
    apply BitVec.eq_of_toNat_eq
    have := v.isLt
    simp only [BitVec.toNat_ofNat]
    omega
  have hw : ∀ (m : Memory) (v : Nat), (m.write (64 * line) (bytesOfNat 64 v)).read (64 * line) 64 = bytesOfNat 64 v :=
    fun m v => by simpa using m.read_write_same (64 * line) (bytesOfNat 64 v)
  have hp : (BitVec.ofNat 512 (natOfBytes bs)).toNat = natOfBytes bs := by
    have := natOfBytes_lt bs
    rw [h] at this
    simp only [BitVec.toNat_ofNat]
    omega
  have hb : bytesOfNat 64 (natOfBytes bs) = bs := h ▸ bytesOfNat_natOfBytes bs
  unfold State.openLine
  rw [hk]
  simp [State.sealLine, hw, hr, Sparse.find_put, hp, hb]

end Machine
end Sys2Proof
end

