-- ==== Sys2Proof/Laws/State.lean ====
section
/-!
SUPPORT. One lemma for each field of a state or of a core under each update that leaves the field alone, true by
definition, so that no proof unfolds a record update.
-/

namespace Sys2Proof.Machine

/-! ### State.setCore -/

@[simp] theorem State.setCore_tide (s : State) (c : Nat) (k : Core) : (s.setCore c k).tide = s.tide := rfl
@[simp] theorem State.setCore_boot (s : State) (c : Nat) (k : Core) : (s.setCore c k).boot = s.boot := rfl
@[simp] theorem State.setCore_powered (s : State) (c : Nat) (k : Core) : (s.setCore c k).powered = s.powered := rfl
@[simp] theorem State.setCore_plimit (s : State) (c : Nat) (k : Core) : (s.setCore c k).plimit = s.plimit := rfl
@[simp] theorem State.setCore_watts (s : State) (c : Nat) (k : Core) : (s.setCore c k).watts = s.watts := rfl
@[simp] theorem State.setCore_draw (s : State) (c : Nat) (k : Core) : (s.setCore c k).draw = s.draw := rfl
@[simp] theorem State.setCore_drawn (s : State) (c : Nat) (k : Core) : (s.setCore c k).drawn = s.drawn := rfl
@[simp] theorem State.setCore_drawnAt (s : State) (c : Nat) (k : Core) : (s.setCore c k).drawnAt = s.drawnAt := rfl
@[simp] theorem State.setCore_celsius (s : State) (c : Nat) (k : Core) : (s.setCore c k).celsius = s.celsius := rfl
@[simp] theorem State.setCore_skew (s : State) (c : Nat) (k : Core) : (s.setCore c k).skew = s.skew := rfl
@[simp] theorem State.setCore_phold (s : State) (c : Nat) (k : Core) : (s.setCore c k).phold = s.phold := rfl
@[simp] theorem State.setCore_thold (s : State) (c : Nat) (k : Core) : (s.setCore c k).thold = s.thold := rfl
@[simp] theorem State.setCore_ttrip (s : State) (c : Nat) (k : Core) : (s.setCore c k).ttrip = s.ttrip := rfl
@[simp] theorem State.setCore_misal (s : State) (c : Nat) (k : Core) : (s.setCore c k).misal = s.misal := rfl
@[simp] theorem State.setCore_diepres (s : State) (c : Nat) (k : Core) : (s.setCore c k).diepres = s.diepres := rfl
@[simp] theorem State.setCore_stkpres (s : State) (c : Nat) (k : Core) : (s.setCore c k).stkpres = s.stkpres := rfl
@[simp] theorem State.setCore_bremap (s : State) (c : Nat) (k : Core) : (s.setCore c k).bremap = s.bremap := rfl
@[simp] theorem State.setCore_route (s : State) (c : Nat) (k : Core) : (s.setCore c k).route = s.route := rfl
@[simp] theorem State.setCore_iberr (s : State) (c : Nat) (k : Core) : (s.setCore c k).iberr = s.iberr := rfl
@[simp] theorem State.setCore_ibsnd (s : State) (c : Nat) (k : Core) : (s.setCore c k).ibsnd = s.ibsnd := rfl
@[simp] theorem State.setCore_kvp (s : State) (c : Nat) (k : Core) : (s.setCore c k).kvp = s.kvp := rfl
@[simp] theorem State.setCore_rcvaddr (s : State) (c : Nat) (k : Core) : (s.setCore c k).rcvaddr = s.rcvaddr := rfl
@[simp] theorem State.setCore_rcvlen (s : State) (c : Nat) (k : Core) : (s.setCore c k).rcvlen = s.rcvlen := rfl
@[simp] theorem State.setCore_rcvcode (s : State) (c : Nat) (k : Core) : (s.setCore c k).rcvcode = s.rcvcode := rfl
@[simp] theorem State.setCore_rcvwait (s : State) (c : Nat) (k : Core) : (s.setCore c k).rcvwait = s.rcvwait := rfl
@[simp] theorem State.setCore_rcvimage (s : State) (c : Nat) (k : Core) : (s.setCore c k).rcvimage = s.rcvimage := rfl
@[simp] theorem State.setCore_flash (s : State) (c : Nat) (k : Core) : (s.setCore c k).flash = s.flash := rfl
@[simp] theorem State.setCore_image (s : State) (c : Nat) (k : Core) : (s.setCore c k).image = s.image := rfl
@[simp] theorem State.setCore_resets (s : State) (c : Nat) (k : Core) : (s.setCore c k).resets = s.resets := rfl
@[simp] theorem State.setCore_edgeDown (s : State) (c : Nat) (k : Core) : (s.setCore c k).edgeDown = s.edgeDown := rfl
@[simp] theorem State.setCore_edgeErrors (s : State) (c : Nat) (k : Core) : (s.setCore c k).edgeErrors = s.edgeErrors := rfl
@[simp] theorem State.setCore_stationUp (s : State) (c : Nat) (k : Core) : (s.setCore c k).stationUp = s.stationUp := rfl
@[simp] theorem State.setCore_portUp (s : State) (c : Nat) (k : Core) : (s.setCore c k).portUp = s.portUp := rfl
@[simp] theorem State.setCore_bindings (s : State) (c : Nat) (k : Core) : (s.setCore c k).bindings = s.bindings := rfl
@[simp] theorem State.setCore_gathers (s : State) (c : Nat) (k : Core) : (s.setCore c k).gathers = s.gathers := rfl
@[simp] theorem State.setCore_outgoing (s : State) (c : Nat) (k : Core) : (s.setCore c k).outgoing = s.outgoing := rfl
@[simp] theorem State.setCore_etherDone (s : State) (c : Nat) (k : Core) : (s.setCore c k).etherDone = s.etherDone := rfl
@[simp] theorem State.setCore_replies (s : State) (c : Nat) (k : Core) : (s.setCore c k).replies = s.replies := rfl
@[simp] theorem State.setCore_funcs (s : State) (c : Nat) (k : Core) : (s.setCore c k).funcs = s.funcs := rfl
@[simp] theorem State.setCore_queues (s : State) (c : Nat) (k : Core) : (s.setCore c k).queues = s.queues := rfl
@[simp] theorem State.setCore_parts (s : State) (c : Nat) (k : Core) : (s.setCore c k).parts = s.parts := rfl
@[simp] theorem State.setCore_owners (s : State) (c : Nat) (k : Core) : (s.setCore c k).owners = s.owners := rfl
@[simp] theorem State.setCore_keys (s : State) (c : Nat) (k : Core) : (s.setCore c k).keys = s.keys := rfl
@[simp] theorem State.setCore_locked (s : State) (c : Nat) (k : Core) : (s.setCore c k).locked = s.locked := rfl
@[simp] theorem State.setCore_msix (s : State) (c : Nat) (k : Core) : (s.setCore c k).msix = s.msix := rfl
@[simp] theorem State.setCore_dies (s : State) (c : Nat) (k : Core) : (s.setCore c k).dies = s.dies := rfl
@[simp] theorem State.setCore_tasks (s : State) (c : Nat) (k : Core) : (s.setCore c k).tasks = s.tasks := rfl
@[simp] theorem State.setCore_graphs (s : State) (c : Nat) (k : Core) : (s.setCore c k).graphs = s.graphs := rfl
@[simp] theorem State.setCore_copies (s : State) (c : Nat) (k : Core) : (s.setCore c k).copies = s.copies := rfl
@[simp] theorem State.setCore_cohort (s : State) (c : Nat) (k : Core) : (s.setCore c k).cohort = s.cohort := rfl
@[simp] theorem State.setCore_device (s : State) (c : Nat) (k : Core) : (s.setCore c k).device = s.device := rfl
@[simp] theorem State.setCore_host (s : State) (c : Nat) (k : Core) : (s.setCore c k).host = s.host := rfl
@[simp] theorem State.setCore_poison (s : State) (c : Nat) (k : Core) : (s.setCore c k).poison = s.poison := rfl
@[simp] theorem State.setCore_corrected (s : State) (c : Nat) (k : Core) : (s.setCore c k).corrected = s.corrected := rfl
@[simp] theorem State.setCore_headers (s : State) (c : Nat) (k : Core) : (s.setCore c k).headers = s.headers := rfl
@[simp] theorem State.setCore_banks (s : State) (c : Nat) (k : Core) : (s.setCore c k).banks = s.banks := rfl
@[simp] theorem State.setCore_msgs (s : State) (c : Nat) (k : Core) : (s.setCore c k).msgs = s.msgs := rfl
@[simp] theorem State.setCore_acks (s : State) (c : Nat) (k : Core) : (s.setCore c k).acks = s.acks := rfl
@[simp] theorem State.setCore_scans (s : State) (c : Nat) (k : Core) : (s.setCore c k).scans = s.scans := rfl
@[simp] theorem State.setCore_groups (s : State) (c : Nat) (k : Core) : (s.setCore c k).groups = s.groups := rfl
@[simp] theorem State.setCore_lastStatus (s : State) (c : Nat) (k : Core) : (s.setCore c k).lastStatus = s.lastStatus := rfl
@[simp] theorem State.setCore_flits (s : State) (c : Nat) (k : Core) : (s.setCore c k).flits = s.flits := rfl
@[simp] theorem State.setCore_links (s : State) (c : Nat) (k : Core) : (s.setCore c k).links = s.links := rfl
@[simp] theorem State.setCore_inbound (s : State) (c : Nat) (k : Core) : (s.setCore c k).inbound = s.inbound := rfl
@[simp] theorem State.setCore_late (s : State) (c : Nat) (k : Core) : (s.setCore c k).late = s.late := rfl
@[simp] theorem State.setCore_covers (s : State) (c : Nat) (k : Core) : (s.setCore c k).covers = s.covers := rfl
@[simp] theorem State.setCore_inbox (s : State) (c : Nat) (k : Core) : (s.setCore c k).inbox = s.inbox := rfl
@[simp] theorem State.setCore_bars (s : State) (c : Nat) (k : Core) : (s.setCore c k).bars = s.bars := rfl
@[simp] theorem State.setCore_agenda (s : State) (c : Nat) (k : Core) : (s.setCore c k).agenda = s.agenda := rfl
@[simp] theorem State.setCore_inputs (s : State) (c : Nat) (k : Core) : (s.setCore c k).inputs = s.inputs := rfl
@[simp] theorem State.setCore_strokes (s : State) (c : Nat) (k : Core) : (s.setCore c k).strokes = s.strokes := rfl
@[simp] theorem State.setCore_now (s : State) (c : Nat) (k : Core) : (s.setCore c k).now = s.now := rfl
@[simp] theorem State.setCore_phase (s : State) (c : Nat) (k : Core) : (s.setCore c k).phase = s.phase := rfl
@[simp] theorem State.setCore_subject (s : State) (c : Nat) (k : Core) : (s.setCore c k).subject = s.subject := rfl
@[simp] theorem State.setCore_cur (s : State) (c : Nat) (k : Core) : (s.setCore c k).cur = s.cur := rfl
@[simp] theorem State.setCore_fresh (s : State) (c : Nat) (k : Core) : (s.setCore c k).fresh = s.fresh := rfl

/-! ### State.modCore -/

@[simp] theorem State.modCore_tide (s : State) (c : Nat) (f : Core → Core) : (s.modCore c f).tide = s.tide := rfl
@[simp] theorem State.modCore_boot (s : State) (c : Nat) (f : Core → Core) : (s.modCore c f).boot = s.boot := rfl
@[simp] theorem State.modCore_powered (s : State) (c : Nat) (f : Core → Core) : (s.modCore c f).powered = s.powered := rfl
@[simp] theorem State.modCore_plimit (s : State) (c : Nat) (f : Core → Core) : (s.modCore c f).plimit = s.plimit := rfl
@[simp] theorem State.modCore_watts (s : State) (c : Nat) (f : Core → Core) : (s.modCore c f).watts = s.watts := rfl
@[simp] theorem State.modCore_draw (s : State) (c : Nat) (f : Core → Core) : (s.modCore c f).draw = s.draw := rfl
@[simp] theorem State.modCore_drawn (s : State) (c : Nat) (f : Core → Core) : (s.modCore c f).drawn = s.drawn := rfl
@[simp] theorem State.modCore_drawnAt (s : State) (c : Nat) (f : Core → Core) : (s.modCore c f).drawnAt = s.drawnAt := rfl
@[simp] theorem State.modCore_celsius (s : State) (c : Nat) (f : Core → Core) : (s.modCore c f).celsius = s.celsius := rfl
@[simp] theorem State.modCore_skew (s : State) (c : Nat) (f : Core → Core) : (s.modCore c f).skew = s.skew := rfl
@[simp] theorem State.modCore_phold (s : State) (c : Nat) (f : Core → Core) : (s.modCore c f).phold = s.phold := rfl
@[simp] theorem State.modCore_thold (s : State) (c : Nat) (f : Core → Core) : (s.modCore c f).thold = s.thold := rfl
@[simp] theorem State.modCore_ttrip (s : State) (c : Nat) (f : Core → Core) : (s.modCore c f).ttrip = s.ttrip := rfl
@[simp] theorem State.modCore_misal (s : State) (c : Nat) (f : Core → Core) : (s.modCore c f).misal = s.misal := rfl
@[simp] theorem State.modCore_diepres (s : State) (c : Nat) (f : Core → Core) : (s.modCore c f).diepres = s.diepres := rfl
@[simp] theorem State.modCore_stkpres (s : State) (c : Nat) (f : Core → Core) : (s.modCore c f).stkpres = s.stkpres := rfl
@[simp] theorem State.modCore_bremap (s : State) (c : Nat) (f : Core → Core) : (s.modCore c f).bremap = s.bremap := rfl
@[simp] theorem State.modCore_route (s : State) (c : Nat) (f : Core → Core) : (s.modCore c f).route = s.route := rfl
@[simp] theorem State.modCore_iberr (s : State) (c : Nat) (f : Core → Core) : (s.modCore c f).iberr = s.iberr := rfl
@[simp] theorem State.modCore_ibsnd (s : State) (c : Nat) (f : Core → Core) : (s.modCore c f).ibsnd = s.ibsnd := rfl
@[simp] theorem State.modCore_kvp (s : State) (c : Nat) (f : Core → Core) : (s.modCore c f).kvp = s.kvp := rfl
@[simp] theorem State.modCore_rcvaddr (s : State) (c : Nat) (f : Core → Core) : (s.modCore c f).rcvaddr = s.rcvaddr := rfl
@[simp] theorem State.modCore_rcvlen (s : State) (c : Nat) (f : Core → Core) : (s.modCore c f).rcvlen = s.rcvlen := rfl
@[simp] theorem State.modCore_rcvcode (s : State) (c : Nat) (f : Core → Core) : (s.modCore c f).rcvcode = s.rcvcode := rfl
@[simp] theorem State.modCore_rcvwait (s : State) (c : Nat) (f : Core → Core) : (s.modCore c f).rcvwait = s.rcvwait := rfl
@[simp] theorem State.modCore_rcvimage (s : State) (c : Nat) (f : Core → Core) : (s.modCore c f).rcvimage = s.rcvimage := rfl
@[simp] theorem State.modCore_flash (s : State) (c : Nat) (f : Core → Core) : (s.modCore c f).flash = s.flash := rfl
@[simp] theorem State.modCore_image (s : State) (c : Nat) (f : Core → Core) : (s.modCore c f).image = s.image := rfl
@[simp] theorem State.modCore_resets (s : State) (c : Nat) (f : Core → Core) : (s.modCore c f).resets = s.resets := rfl
@[simp] theorem State.modCore_edgeDown (s : State) (c : Nat) (f : Core → Core) : (s.modCore c f).edgeDown = s.edgeDown := rfl
@[simp] theorem State.modCore_edgeErrors (s : State) (c : Nat) (f : Core → Core) : (s.modCore c f).edgeErrors = s.edgeErrors := rfl
@[simp] theorem State.modCore_stationUp (s : State) (c : Nat) (f : Core → Core) : (s.modCore c f).stationUp = s.stationUp := rfl
@[simp] theorem State.modCore_portUp (s : State) (c : Nat) (f : Core → Core) : (s.modCore c f).portUp = s.portUp := rfl
@[simp] theorem State.modCore_bindings (s : State) (c : Nat) (f : Core → Core) : (s.modCore c f).bindings = s.bindings := rfl
@[simp] theorem State.modCore_gathers (s : State) (c : Nat) (f : Core → Core) : (s.modCore c f).gathers = s.gathers := rfl
@[simp] theorem State.modCore_outgoing (s : State) (c : Nat) (f : Core → Core) : (s.modCore c f).outgoing = s.outgoing := rfl
@[simp] theorem State.modCore_etherDone (s : State) (c : Nat) (f : Core → Core) : (s.modCore c f).etherDone = s.etherDone := rfl
@[simp] theorem State.modCore_replies (s : State) (c : Nat) (f : Core → Core) : (s.modCore c f).replies = s.replies := rfl
@[simp] theorem State.modCore_funcs (s : State) (c : Nat) (f : Core → Core) : (s.modCore c f).funcs = s.funcs := rfl
@[simp] theorem State.modCore_queues (s : State) (c : Nat) (f : Core → Core) : (s.modCore c f).queues = s.queues := rfl
@[simp] theorem State.modCore_parts (s : State) (c : Nat) (f : Core → Core) : (s.modCore c f).parts = s.parts := rfl
@[simp] theorem State.modCore_owners (s : State) (c : Nat) (f : Core → Core) : (s.modCore c f).owners = s.owners := rfl
@[simp] theorem State.modCore_keys (s : State) (c : Nat) (f : Core → Core) : (s.modCore c f).keys = s.keys := rfl
@[simp] theorem State.modCore_locked (s : State) (c : Nat) (f : Core → Core) : (s.modCore c f).locked = s.locked := rfl
@[simp] theorem State.modCore_msix (s : State) (c : Nat) (f : Core → Core) : (s.modCore c f).msix = s.msix := rfl
@[simp] theorem State.modCore_dies (s : State) (c : Nat) (f : Core → Core) : (s.modCore c f).dies = s.dies := rfl
@[simp] theorem State.modCore_tasks (s : State) (c : Nat) (f : Core → Core) : (s.modCore c f).tasks = s.tasks := rfl
@[simp] theorem State.modCore_graphs (s : State) (c : Nat) (f : Core → Core) : (s.modCore c f).graphs = s.graphs := rfl
@[simp] theorem State.modCore_copies (s : State) (c : Nat) (f : Core → Core) : (s.modCore c f).copies = s.copies := rfl
@[simp] theorem State.modCore_cohort (s : State) (c : Nat) (f : Core → Core) : (s.modCore c f).cohort = s.cohort := rfl
@[simp] theorem State.modCore_device (s : State) (c : Nat) (f : Core → Core) : (s.modCore c f).device = s.device := rfl
@[simp] theorem State.modCore_host (s : State) (c : Nat) (f : Core → Core) : (s.modCore c f).host = s.host := rfl
@[simp] theorem State.modCore_poison (s : State) (c : Nat) (f : Core → Core) : (s.modCore c f).poison = s.poison := rfl
@[simp] theorem State.modCore_corrected (s : State) (c : Nat) (f : Core → Core) : (s.modCore c f).corrected = s.corrected := rfl
@[simp] theorem State.modCore_headers (s : State) (c : Nat) (f : Core → Core) : (s.modCore c f).headers = s.headers := rfl
@[simp] theorem State.modCore_banks (s : State) (c : Nat) (f : Core → Core) : (s.modCore c f).banks = s.banks := rfl
@[simp] theorem State.modCore_msgs (s : State) (c : Nat) (f : Core → Core) : (s.modCore c f).msgs = s.msgs := rfl
@[simp] theorem State.modCore_acks (s : State) (c : Nat) (f : Core → Core) : (s.modCore c f).acks = s.acks := rfl
@[simp] theorem State.modCore_scans (s : State) (c : Nat) (f : Core → Core) : (s.modCore c f).scans = s.scans := rfl
@[simp] theorem State.modCore_groups (s : State) (c : Nat) (f : Core → Core) : (s.modCore c f).groups = s.groups := rfl
@[simp] theorem State.modCore_lastStatus (s : State) (c : Nat) (f : Core → Core) : (s.modCore c f).lastStatus = s.lastStatus := rfl
@[simp] theorem State.modCore_flits (s : State) (c : Nat) (f : Core → Core) : (s.modCore c f).flits = s.flits := rfl
@[simp] theorem State.modCore_links (s : State) (c : Nat) (f : Core → Core) : (s.modCore c f).links = s.links := rfl
@[simp] theorem State.modCore_inbound (s : State) (c : Nat) (f : Core → Core) : (s.modCore c f).inbound = s.inbound := rfl
@[simp] theorem State.modCore_late (s : State) (c : Nat) (f : Core → Core) : (s.modCore c f).late = s.late := rfl
@[simp] theorem State.modCore_covers (s : State) (c : Nat) (f : Core → Core) : (s.modCore c f).covers = s.covers := rfl
@[simp] theorem State.modCore_inbox (s : State) (c : Nat) (f : Core → Core) : (s.modCore c f).inbox = s.inbox := rfl
@[simp] theorem State.modCore_bars (s : State) (c : Nat) (f : Core → Core) : (s.modCore c f).bars = s.bars := rfl
@[simp] theorem State.modCore_agenda (s : State) (c : Nat) (f : Core → Core) : (s.modCore c f).agenda = s.agenda := rfl
@[simp] theorem State.modCore_inputs (s : State) (c : Nat) (f : Core → Core) : (s.modCore c f).inputs = s.inputs := rfl
@[simp] theorem State.modCore_strokes (s : State) (c : Nat) (f : Core → Core) : (s.modCore c f).strokes = s.strokes := rfl
@[simp] theorem State.modCore_now (s : State) (c : Nat) (f : Core → Core) : (s.modCore c f).now = s.now := rfl
@[simp] theorem State.modCore_phase (s : State) (c : Nat) (f : Core → Core) : (s.modCore c f).phase = s.phase := rfl
@[simp] theorem State.modCore_subject (s : State) (c : Nat) (f : Core → Core) : (s.modCore c f).subject = s.subject := rfl
@[simp] theorem State.modCore_cur (s : State) (c : Nat) (f : Core → Core) : (s.modCore c f).cur = s.cur := rfl
@[simp] theorem State.modCore_fresh (s : State) (c : Nat) (f : Core → Core) : (s.modCore c f).fresh = s.fresh := rfl

/-! ### State.setTask -/

@[simp] theorem State.setTask_tide (s : State) (n : Nat) (k : Task) : (s.setTask n k).tide = s.tide := rfl
@[simp] theorem State.setTask_boot (s : State) (n : Nat) (k : Task) : (s.setTask n k).boot = s.boot := rfl
@[simp] theorem State.setTask_powered (s : State) (n : Nat) (k : Task) : (s.setTask n k).powered = s.powered := rfl
@[simp] theorem State.setTask_plimit (s : State) (n : Nat) (k : Task) : (s.setTask n k).plimit = s.plimit := rfl
@[simp] theorem State.setTask_watts (s : State) (n : Nat) (k : Task) : (s.setTask n k).watts = s.watts := rfl
@[simp] theorem State.setTask_draw (s : State) (n : Nat) (k : Task) : (s.setTask n k).draw = s.draw := rfl
@[simp] theorem State.setTask_drawn (s : State) (n : Nat) (k : Task) : (s.setTask n k).drawn = s.drawn := rfl
@[simp] theorem State.setTask_drawnAt (s : State) (n : Nat) (k : Task) : (s.setTask n k).drawnAt = s.drawnAt := rfl
@[simp] theorem State.setTask_celsius (s : State) (n : Nat) (k : Task) : (s.setTask n k).celsius = s.celsius := rfl
@[simp] theorem State.setTask_skew (s : State) (n : Nat) (k : Task) : (s.setTask n k).skew = s.skew := rfl
@[simp] theorem State.setTask_phold (s : State) (n : Nat) (k : Task) : (s.setTask n k).phold = s.phold := rfl
@[simp] theorem State.setTask_thold (s : State) (n : Nat) (k : Task) : (s.setTask n k).thold = s.thold := rfl
@[simp] theorem State.setTask_ttrip (s : State) (n : Nat) (k : Task) : (s.setTask n k).ttrip = s.ttrip := rfl
@[simp] theorem State.setTask_misal (s : State) (n : Nat) (k : Task) : (s.setTask n k).misal = s.misal := rfl
@[simp] theorem State.setTask_diepres (s : State) (n : Nat) (k : Task) : (s.setTask n k).diepres = s.diepres := rfl
@[simp] theorem State.setTask_stkpres (s : State) (n : Nat) (k : Task) : (s.setTask n k).stkpres = s.stkpres := rfl
@[simp] theorem State.setTask_bremap (s : State) (n : Nat) (k : Task) : (s.setTask n k).bremap = s.bremap := rfl
@[simp] theorem State.setTask_route (s : State) (n : Nat) (k : Task) : (s.setTask n k).route = s.route := rfl
@[simp] theorem State.setTask_iberr (s : State) (n : Nat) (k : Task) : (s.setTask n k).iberr = s.iberr := rfl
@[simp] theorem State.setTask_ibsnd (s : State) (n : Nat) (k : Task) : (s.setTask n k).ibsnd = s.ibsnd := rfl
@[simp] theorem State.setTask_kvp (s : State) (n : Nat) (k : Task) : (s.setTask n k).kvp = s.kvp := rfl
@[simp] theorem State.setTask_rcvaddr (s : State) (n : Nat) (k : Task) : (s.setTask n k).rcvaddr = s.rcvaddr := rfl
@[simp] theorem State.setTask_rcvlen (s : State) (n : Nat) (k : Task) : (s.setTask n k).rcvlen = s.rcvlen := rfl
@[simp] theorem State.setTask_rcvcode (s : State) (n : Nat) (k : Task) : (s.setTask n k).rcvcode = s.rcvcode := rfl
@[simp] theorem State.setTask_rcvwait (s : State) (n : Nat) (k : Task) : (s.setTask n k).rcvwait = s.rcvwait := rfl
@[simp] theorem State.setTask_rcvimage (s : State) (n : Nat) (k : Task) : (s.setTask n k).rcvimage = s.rcvimage := rfl
@[simp] theorem State.setTask_flash (s : State) (n : Nat) (k : Task) : (s.setTask n k).flash = s.flash := rfl
@[simp] theorem State.setTask_image (s : State) (n : Nat) (k : Task) : (s.setTask n k).image = s.image := rfl
@[simp] theorem State.setTask_resets (s : State) (n : Nat) (k : Task) : (s.setTask n k).resets = s.resets := rfl
@[simp] theorem State.setTask_edgeDown (s : State) (n : Nat) (k : Task) : (s.setTask n k).edgeDown = s.edgeDown := rfl
@[simp] theorem State.setTask_edgeErrors (s : State) (n : Nat) (k : Task) : (s.setTask n k).edgeErrors = s.edgeErrors := rfl
@[simp] theorem State.setTask_stationUp (s : State) (n : Nat) (k : Task) : (s.setTask n k).stationUp = s.stationUp := rfl
@[simp] theorem State.setTask_portUp (s : State) (n : Nat) (k : Task) : (s.setTask n k).portUp = s.portUp := rfl
@[simp] theorem State.setTask_bindings (s : State) (n : Nat) (k : Task) : (s.setTask n k).bindings = s.bindings := rfl
@[simp] theorem State.setTask_gathers (s : State) (n : Nat) (k : Task) : (s.setTask n k).gathers = s.gathers := rfl
@[simp] theorem State.setTask_outgoing (s : State) (n : Nat) (k : Task) : (s.setTask n k).outgoing = s.outgoing := rfl
@[simp] theorem State.setTask_etherDone (s : State) (n : Nat) (k : Task) : (s.setTask n k).etherDone = s.etherDone := rfl
@[simp] theorem State.setTask_replies (s : State) (n : Nat) (k : Task) : (s.setTask n k).replies = s.replies := rfl
@[simp] theorem State.setTask_funcs (s : State) (n : Nat) (k : Task) : (s.setTask n k).funcs = s.funcs := rfl
@[simp] theorem State.setTask_queues (s : State) (n : Nat) (k : Task) : (s.setTask n k).queues = s.queues := rfl
@[simp] theorem State.setTask_parts (s : State) (n : Nat) (k : Task) : (s.setTask n k).parts = s.parts := rfl
@[simp] theorem State.setTask_owners (s : State) (n : Nat) (k : Task) : (s.setTask n k).owners = s.owners := rfl
@[simp] theorem State.setTask_keys (s : State) (n : Nat) (k : Task) : (s.setTask n k).keys = s.keys := rfl
@[simp] theorem State.setTask_locked (s : State) (n : Nat) (k : Task) : (s.setTask n k).locked = s.locked := rfl
@[simp] theorem State.setTask_msix (s : State) (n : Nat) (k : Task) : (s.setTask n k).msix = s.msix := rfl
@[simp] theorem State.setTask_dies (s : State) (n : Nat) (k : Task) : (s.setTask n k).dies = s.dies := rfl
@[simp] theorem State.setTask_graphs (s : State) (n : Nat) (k : Task) : (s.setTask n k).graphs = s.graphs := rfl
@[simp] theorem State.setTask_copies (s : State) (n : Nat) (k : Task) : (s.setTask n k).copies = s.copies := rfl
@[simp] theorem State.setTask_cores (s : State) (n : Nat) (k : Task) : (s.setTask n k).cores = s.cores := rfl
@[simp] theorem State.setTask_cohort (s : State) (n : Nat) (k : Task) : (s.setTask n k).cohort = s.cohort := rfl
@[simp] theorem State.setTask_device (s : State) (n : Nat) (k : Task) : (s.setTask n k).device = s.device := rfl
@[simp] theorem State.setTask_host (s : State) (n : Nat) (k : Task) : (s.setTask n k).host = s.host := rfl
@[simp] theorem State.setTask_poison (s : State) (n : Nat) (k : Task) : (s.setTask n k).poison = s.poison := rfl
@[simp] theorem State.setTask_corrected (s : State) (n : Nat) (k : Task) : (s.setTask n k).corrected = s.corrected := rfl
@[simp] theorem State.setTask_headers (s : State) (n : Nat) (k : Task) : (s.setTask n k).headers = s.headers := rfl
@[simp] theorem State.setTask_banks (s : State) (n : Nat) (k : Task) : (s.setTask n k).banks = s.banks := rfl
@[simp] theorem State.setTask_msgs (s : State) (n : Nat) (k : Task) : (s.setTask n k).msgs = s.msgs := rfl
@[simp] theorem State.setTask_acks (s : State) (n : Nat) (k : Task) : (s.setTask n k).acks = s.acks := rfl
@[simp] theorem State.setTask_scans (s : State) (n : Nat) (k : Task) : (s.setTask n k).scans = s.scans := rfl
@[simp] theorem State.setTask_groups (s : State) (n : Nat) (k : Task) : (s.setTask n k).groups = s.groups := rfl
@[simp] theorem State.setTask_lastStatus (s : State) (n : Nat) (k : Task) : (s.setTask n k).lastStatus = s.lastStatus := rfl
@[simp] theorem State.setTask_flits (s : State) (n : Nat) (k : Task) : (s.setTask n k).flits = s.flits := rfl
@[simp] theorem State.setTask_links (s : State) (n : Nat) (k : Task) : (s.setTask n k).links = s.links := rfl
@[simp] theorem State.setTask_inbound (s : State) (n : Nat) (k : Task) : (s.setTask n k).inbound = s.inbound := rfl
@[simp] theorem State.setTask_late (s : State) (n : Nat) (k : Task) : (s.setTask n k).late = s.late := rfl
@[simp] theorem State.setTask_covers (s : State) (n : Nat) (k : Task) : (s.setTask n k).covers = s.covers := rfl
@[simp] theorem State.setTask_inbox (s : State) (n : Nat) (k : Task) : (s.setTask n k).inbox = s.inbox := rfl
@[simp] theorem State.setTask_bars (s : State) (n : Nat) (k : Task) : (s.setTask n k).bars = s.bars := rfl
@[simp] theorem State.setTask_agenda (s : State) (n : Nat) (k : Task) : (s.setTask n k).agenda = s.agenda := rfl
@[simp] theorem State.setTask_inputs (s : State) (n : Nat) (k : Task) : (s.setTask n k).inputs = s.inputs := rfl
@[simp] theorem State.setTask_strokes (s : State) (n : Nat) (k : Task) : (s.setTask n k).strokes = s.strokes := rfl
@[simp] theorem State.setTask_now (s : State) (n : Nat) (k : Task) : (s.setTask n k).now = s.now := rfl
@[simp] theorem State.setTask_phase (s : State) (n : Nat) (k : Task) : (s.setTask n k).phase = s.phase := rfl
@[simp] theorem State.setTask_subject (s : State) (n : Nat) (k : Task) : (s.setTask n k).subject = s.subject := rfl
@[simp] theorem State.setTask_cur (s : State) (n : Nat) (k : Task) : (s.setTask n k).cur = s.cur := rfl
@[simp] theorem State.setTask_fresh (s : State) (n : Nat) (k : Task) : (s.setTask n k).fresh = s.fresh := rfl

/-! ### State.setPart -/

@[simp] theorem State.setPart_tide (s : State) (p : Nat) (k : Partition) : (s.setPart p k).tide = s.tide := rfl
@[simp] theorem State.setPart_boot (s : State) (p : Nat) (k : Partition) : (s.setPart p k).boot = s.boot := rfl
@[simp] theorem State.setPart_powered (s : State) (p : Nat) (k : Partition) : (s.setPart p k).powered = s.powered := rfl
@[simp] theorem State.setPart_plimit (s : State) (p : Nat) (k : Partition) : (s.setPart p k).plimit = s.plimit := rfl
@[simp] theorem State.setPart_watts (s : State) (p : Nat) (k : Partition) : (s.setPart p k).watts = s.watts := rfl
@[simp] theorem State.setPart_draw (s : State) (p : Nat) (k : Partition) : (s.setPart p k).draw = s.draw := rfl
@[simp] theorem State.setPart_drawn (s : State) (p : Nat) (k : Partition) : (s.setPart p k).drawn = s.drawn := rfl
@[simp] theorem State.setPart_drawnAt (s : State) (p : Nat) (k : Partition) : (s.setPart p k).drawnAt = s.drawnAt := rfl
@[simp] theorem State.setPart_celsius (s : State) (p : Nat) (k : Partition) : (s.setPart p k).celsius = s.celsius := rfl
@[simp] theorem State.setPart_skew (s : State) (p : Nat) (k : Partition) : (s.setPart p k).skew = s.skew := rfl
@[simp] theorem State.setPart_phold (s : State) (p : Nat) (k : Partition) : (s.setPart p k).phold = s.phold := rfl
@[simp] theorem State.setPart_thold (s : State) (p : Nat) (k : Partition) : (s.setPart p k).thold = s.thold := rfl
@[simp] theorem State.setPart_ttrip (s : State) (p : Nat) (k : Partition) : (s.setPart p k).ttrip = s.ttrip := rfl
@[simp] theorem State.setPart_misal (s : State) (p : Nat) (k : Partition) : (s.setPart p k).misal = s.misal := rfl
@[simp] theorem State.setPart_diepres (s : State) (p : Nat) (k : Partition) : (s.setPart p k).diepres = s.diepres := rfl
@[simp] theorem State.setPart_stkpres (s : State) (p : Nat) (k : Partition) : (s.setPart p k).stkpres = s.stkpres := rfl
@[simp] theorem State.setPart_bremap (s : State) (p : Nat) (k : Partition) : (s.setPart p k).bremap = s.bremap := rfl
@[simp] theorem State.setPart_route (s : State) (p : Nat) (k : Partition) : (s.setPart p k).route = s.route := rfl
@[simp] theorem State.setPart_iberr (s : State) (p : Nat) (k : Partition) : (s.setPart p k).iberr = s.iberr := rfl
@[simp] theorem State.setPart_ibsnd (s : State) (p : Nat) (k : Partition) : (s.setPart p k).ibsnd = s.ibsnd := rfl
@[simp] theorem State.setPart_kvp (s : State) (p : Nat) (k : Partition) : (s.setPart p k).kvp = s.kvp := rfl
@[simp] theorem State.setPart_rcvaddr (s : State) (p : Nat) (k : Partition) : (s.setPart p k).rcvaddr = s.rcvaddr := rfl
@[simp] theorem State.setPart_rcvlen (s : State) (p : Nat) (k : Partition) : (s.setPart p k).rcvlen = s.rcvlen := rfl
@[simp] theorem State.setPart_rcvcode (s : State) (p : Nat) (k : Partition) : (s.setPart p k).rcvcode = s.rcvcode := rfl
@[simp] theorem State.setPart_rcvwait (s : State) (p : Nat) (k : Partition) : (s.setPart p k).rcvwait = s.rcvwait := rfl
@[simp] theorem State.setPart_rcvimage (s : State) (p : Nat) (k : Partition) : (s.setPart p k).rcvimage = s.rcvimage := rfl
@[simp] theorem State.setPart_flash (s : State) (p : Nat) (k : Partition) : (s.setPart p k).flash = s.flash := rfl
@[simp] theorem State.setPart_image (s : State) (p : Nat) (k : Partition) : (s.setPart p k).image = s.image := rfl
@[simp] theorem State.setPart_resets (s : State) (p : Nat) (k : Partition) : (s.setPart p k).resets = s.resets := rfl
@[simp] theorem State.setPart_edgeDown (s : State) (p : Nat) (k : Partition) : (s.setPart p k).edgeDown = s.edgeDown := rfl
@[simp] theorem State.setPart_edgeErrors (s : State) (p : Nat) (k : Partition) : (s.setPart p k).edgeErrors = s.edgeErrors := rfl
@[simp] theorem State.setPart_stationUp (s : State) (p : Nat) (k : Partition) : (s.setPart p k).stationUp = s.stationUp := rfl
@[simp] theorem State.setPart_portUp (s : State) (p : Nat) (k : Partition) : (s.setPart p k).portUp = s.portUp := rfl
@[simp] theorem State.setPart_bindings (s : State) (p : Nat) (k : Partition) : (s.setPart p k).bindings = s.bindings := rfl
@[simp] theorem State.setPart_gathers (s : State) (p : Nat) (k : Partition) : (s.setPart p k).gathers = s.gathers := rfl
@[simp] theorem State.setPart_outgoing (s : State) (p : Nat) (k : Partition) : (s.setPart p k).outgoing = s.outgoing := rfl
@[simp] theorem State.setPart_etherDone (s : State) (p : Nat) (k : Partition) : (s.setPart p k).etherDone = s.etherDone := rfl
@[simp] theorem State.setPart_replies (s : State) (p : Nat) (k : Partition) : (s.setPart p k).replies = s.replies := rfl
@[simp] theorem State.setPart_funcs (s : State) (p : Nat) (k : Partition) : (s.setPart p k).funcs = s.funcs := rfl
@[simp] theorem State.setPart_queues (s : State) (p : Nat) (k : Partition) : (s.setPart p k).queues = s.queues := rfl
@[simp] theorem State.setPart_owners (s : State) (p : Nat) (k : Partition) : (s.setPart p k).owners = s.owners := rfl
@[simp] theorem State.setPart_keys (s : State) (p : Nat) (k : Partition) : (s.setPart p k).keys = s.keys := rfl
@[simp] theorem State.setPart_locked (s : State) (p : Nat) (k : Partition) : (s.setPart p k).locked = s.locked := rfl
@[simp] theorem State.setPart_msix (s : State) (p : Nat) (k : Partition) : (s.setPart p k).msix = s.msix := rfl
@[simp] theorem State.setPart_dies (s : State) (p : Nat) (k : Partition) : (s.setPart p k).dies = s.dies := rfl
@[simp] theorem State.setPart_tasks (s : State) (p : Nat) (k : Partition) : (s.setPart p k).tasks = s.tasks := rfl
@[simp] theorem State.setPart_graphs (s : State) (p : Nat) (k : Partition) : (s.setPart p k).graphs = s.graphs := rfl
@[simp] theorem State.setPart_copies (s : State) (p : Nat) (k : Partition) : (s.setPart p k).copies = s.copies := rfl
@[simp] theorem State.setPart_cores (s : State) (p : Nat) (k : Partition) : (s.setPart p k).cores = s.cores := rfl
@[simp] theorem State.setPart_cohort (s : State) (p : Nat) (k : Partition) : (s.setPart p k).cohort = s.cohort := rfl
@[simp] theorem State.setPart_device (s : State) (p : Nat) (k : Partition) : (s.setPart p k).device = s.device := rfl
@[simp] theorem State.setPart_host (s : State) (p : Nat) (k : Partition) : (s.setPart p k).host = s.host := rfl
@[simp] theorem State.setPart_poison (s : State) (p : Nat) (k : Partition) : (s.setPart p k).poison = s.poison := rfl
@[simp] theorem State.setPart_corrected (s : State) (p : Nat) (k : Partition) : (s.setPart p k).corrected = s.corrected := rfl
@[simp] theorem State.setPart_headers (s : State) (p : Nat) (k : Partition) : (s.setPart p k).headers = s.headers := rfl
@[simp] theorem State.setPart_banks (s : State) (p : Nat) (k : Partition) : (s.setPart p k).banks = s.banks := rfl
@[simp] theorem State.setPart_msgs (s : State) (p : Nat) (k : Partition) : (s.setPart p k).msgs = s.msgs := rfl
@[simp] theorem State.setPart_acks (s : State) (p : Nat) (k : Partition) : (s.setPart p k).acks = s.acks := rfl
@[simp] theorem State.setPart_scans (s : State) (p : Nat) (k : Partition) : (s.setPart p k).scans = s.scans := rfl
@[simp] theorem State.setPart_groups (s : State) (p : Nat) (k : Partition) : (s.setPart p k).groups = s.groups := rfl
@[simp] theorem State.setPart_lastStatus (s : State) (p : Nat) (k : Partition) : (s.setPart p k).lastStatus = s.lastStatus := rfl
@[simp] theorem State.setPart_flits (s : State) (p : Nat) (k : Partition) : (s.setPart p k).flits = s.flits := rfl
@[simp] theorem State.setPart_links (s : State) (p : Nat) (k : Partition) : (s.setPart p k).links = s.links := rfl
@[simp] theorem State.setPart_inbound (s : State) (p : Nat) (k : Partition) : (s.setPart p k).inbound = s.inbound := rfl
@[simp] theorem State.setPart_late (s : State) (p : Nat) (k : Partition) : (s.setPart p k).late = s.late := rfl
@[simp] theorem State.setPart_covers (s : State) (p : Nat) (k : Partition) : (s.setPart p k).covers = s.covers := rfl
@[simp] theorem State.setPart_inbox (s : State) (p : Nat) (k : Partition) : (s.setPart p k).inbox = s.inbox := rfl
@[simp] theorem State.setPart_bars (s : State) (p : Nat) (k : Partition) : (s.setPart p k).bars = s.bars := rfl
@[simp] theorem State.setPart_agenda (s : State) (p : Nat) (k : Partition) : (s.setPart p k).agenda = s.agenda := rfl
@[simp] theorem State.setPart_inputs (s : State) (p : Nat) (k : Partition) : (s.setPart p k).inputs = s.inputs := rfl
@[simp] theorem State.setPart_strokes (s : State) (p : Nat) (k : Partition) : (s.setPart p k).strokes = s.strokes := rfl
@[simp] theorem State.setPart_now (s : State) (p : Nat) (k : Partition) : (s.setPart p k).now = s.now := rfl
@[simp] theorem State.setPart_phase (s : State) (p : Nat) (k : Partition) : (s.setPart p k).phase = s.phase := rfl
@[simp] theorem State.setPart_subject (s : State) (p : Nat) (k : Partition) : (s.setPart p k).subject = s.subject := rfl
@[simp] theorem State.setPart_cur (s : State) (p : Nat) (k : Partition) : (s.setPart p k).cur = s.cur := rfl
@[simp] theorem State.setPart_fresh (s : State) (p : Nat) (k : Partition) : (s.setPart p k).fresh = s.fresh := rfl

/-! ### State.due -/

@[simp] theorem State.due_tide (s : State) (t : Nat) (i : Instr) (x : Nat) : (s.due t i x).tide = s.tide := rfl
@[simp] theorem State.due_boot (s : State) (t : Nat) (i : Instr) (x : Nat) : (s.due t i x).boot = s.boot := rfl
@[simp] theorem State.due_powered (s : State) (t : Nat) (i : Instr) (x : Nat) : (s.due t i x).powered = s.powered := rfl
@[simp] theorem State.due_plimit (s : State) (t : Nat) (i : Instr) (x : Nat) : (s.due t i x).plimit = s.plimit := rfl
@[simp] theorem State.due_watts (s : State) (t : Nat) (i : Instr) (x : Nat) : (s.due t i x).watts = s.watts := rfl
@[simp] theorem State.due_draw (s : State) (t : Nat) (i : Instr) (x : Nat) : (s.due t i x).draw = s.draw := rfl
@[simp] theorem State.due_drawn (s : State) (t : Nat) (i : Instr) (x : Nat) : (s.due t i x).drawn = s.drawn := rfl
@[simp] theorem State.due_drawnAt (s : State) (t : Nat) (i : Instr) (x : Nat) : (s.due t i x).drawnAt = s.drawnAt := rfl
@[simp] theorem State.due_celsius (s : State) (t : Nat) (i : Instr) (x : Nat) : (s.due t i x).celsius = s.celsius := rfl
@[simp] theorem State.due_skew (s : State) (t : Nat) (i : Instr) (x : Nat) : (s.due t i x).skew = s.skew := rfl
@[simp] theorem State.due_phold (s : State) (t : Nat) (i : Instr) (x : Nat) : (s.due t i x).phold = s.phold := rfl
@[simp] theorem State.due_thold (s : State) (t : Nat) (i : Instr) (x : Nat) : (s.due t i x).thold = s.thold := rfl
@[simp] theorem State.due_ttrip (s : State) (t : Nat) (i : Instr) (x : Nat) : (s.due t i x).ttrip = s.ttrip := rfl
@[simp] theorem State.due_misal (s : State) (t : Nat) (i : Instr) (x : Nat) : (s.due t i x).misal = s.misal := rfl
@[simp] theorem State.due_diepres (s : State) (t : Nat) (i : Instr) (x : Nat) : (s.due t i x).diepres = s.diepres := rfl
@[simp] theorem State.due_stkpres (s : State) (t : Nat) (i : Instr) (x : Nat) : (s.due t i x).stkpres = s.stkpres := rfl
@[simp] theorem State.due_bremap (s : State) (t : Nat) (i : Instr) (x : Nat) : (s.due t i x).bremap = s.bremap := rfl
@[simp] theorem State.due_route (s : State) (t : Nat) (i : Instr) (x : Nat) : (s.due t i x).route = s.route := rfl
@[simp] theorem State.due_iberr (s : State) (t : Nat) (i : Instr) (x : Nat) : (s.due t i x).iberr = s.iberr := rfl
@[simp] theorem State.due_ibsnd (s : State) (t : Nat) (i : Instr) (x : Nat) : (s.due t i x).ibsnd = s.ibsnd := rfl
@[simp] theorem State.due_kvp (s : State) (t : Nat) (i : Instr) (x : Nat) : (s.due t i x).kvp = s.kvp := rfl
@[simp] theorem State.due_rcvaddr (s : State) (t : Nat) (i : Instr) (x : Nat) : (s.due t i x).rcvaddr = s.rcvaddr := rfl
@[simp] theorem State.due_rcvlen (s : State) (t : Nat) (i : Instr) (x : Nat) : (s.due t i x).rcvlen = s.rcvlen := rfl
@[simp] theorem State.due_rcvcode (s : State) (t : Nat) (i : Instr) (x : Nat) : (s.due t i x).rcvcode = s.rcvcode := rfl
@[simp] theorem State.due_rcvwait (s : State) (t : Nat) (i : Instr) (x : Nat) : (s.due t i x).rcvwait = s.rcvwait := rfl
@[simp] theorem State.due_rcvimage (s : State) (t : Nat) (i : Instr) (x : Nat) : (s.due t i x).rcvimage = s.rcvimage := rfl
@[simp] theorem State.due_flash (s : State) (t : Nat) (i : Instr) (x : Nat) : (s.due t i x).flash = s.flash := rfl
@[simp] theorem State.due_image (s : State) (t : Nat) (i : Instr) (x : Nat) : (s.due t i x).image = s.image := rfl
@[simp] theorem State.due_resets (s : State) (t : Nat) (i : Instr) (x : Nat) : (s.due t i x).resets = s.resets := rfl
@[simp] theorem State.due_edgeDown (s : State) (t : Nat) (i : Instr) (x : Nat) : (s.due t i x).edgeDown = s.edgeDown := rfl
@[simp] theorem State.due_edgeErrors (s : State) (t : Nat) (i : Instr) (x : Nat) : (s.due t i x).edgeErrors = s.edgeErrors := rfl
@[simp] theorem State.due_stationUp (s : State) (t : Nat) (i : Instr) (x : Nat) : (s.due t i x).stationUp = s.stationUp := rfl
@[simp] theorem State.due_portUp (s : State) (t : Nat) (i : Instr) (x : Nat) : (s.due t i x).portUp = s.portUp := rfl
@[simp] theorem State.due_bindings (s : State) (t : Nat) (i : Instr) (x : Nat) : (s.due t i x).bindings = s.bindings := rfl
@[simp] theorem State.due_gathers (s : State) (t : Nat) (i : Instr) (x : Nat) : (s.due t i x).gathers = s.gathers := rfl
@[simp] theorem State.due_outgoing (s : State) (t : Nat) (i : Instr) (x : Nat) : (s.due t i x).outgoing = s.outgoing := rfl
@[simp] theorem State.due_etherDone (s : State) (t : Nat) (i : Instr) (x : Nat) : (s.due t i x).etherDone = s.etherDone := rfl
@[simp] theorem State.due_replies (s : State) (t : Nat) (i : Instr) (x : Nat) : (s.due t i x).replies = s.replies := rfl
@[simp] theorem State.due_funcs (s : State) (t : Nat) (i : Instr) (x : Nat) : (s.due t i x).funcs = s.funcs := rfl
@[simp] theorem State.due_queues (s : State) (t : Nat) (i : Instr) (x : Nat) : (s.due t i x).queues = s.queues := rfl
@[simp] theorem State.due_parts (s : State) (t : Nat) (i : Instr) (x : Nat) : (s.due t i x).parts = s.parts := rfl
@[simp] theorem State.due_owners (s : State) (t : Nat) (i : Instr) (x : Nat) : (s.due t i x).owners = s.owners := rfl
@[simp] theorem State.due_keys (s : State) (t : Nat) (i : Instr) (x : Nat) : (s.due t i x).keys = s.keys := rfl
@[simp] theorem State.due_locked (s : State) (t : Nat) (i : Instr) (x : Nat) : (s.due t i x).locked = s.locked := rfl
@[simp] theorem State.due_msix (s : State) (t : Nat) (i : Instr) (x : Nat) : (s.due t i x).msix = s.msix := rfl
@[simp] theorem State.due_dies (s : State) (t : Nat) (i : Instr) (x : Nat) : (s.due t i x).dies = s.dies := rfl
@[simp] theorem State.due_tasks (s : State) (t : Nat) (i : Instr) (x : Nat) : (s.due t i x).tasks = s.tasks := rfl
@[simp] theorem State.due_graphs (s : State) (t : Nat) (i : Instr) (x : Nat) : (s.due t i x).graphs = s.graphs := rfl
@[simp] theorem State.due_copies (s : State) (t : Nat) (i : Instr) (x : Nat) : (s.due t i x).copies = s.copies := rfl
@[simp] theorem State.due_cores (s : State) (t : Nat) (i : Instr) (x : Nat) : (s.due t i x).cores = s.cores := rfl
@[simp] theorem State.due_cohort (s : State) (t : Nat) (i : Instr) (x : Nat) : (s.due t i x).cohort = s.cohort := rfl
@[simp] theorem State.due_device (s : State) (t : Nat) (i : Instr) (x : Nat) : (s.due t i x).device = s.device := rfl
@[simp] theorem State.due_host (s : State) (t : Nat) (i : Instr) (x : Nat) : (s.due t i x).host = s.host := rfl
@[simp] theorem State.due_poison (s : State) (t : Nat) (i : Instr) (x : Nat) : (s.due t i x).poison = s.poison := rfl
@[simp] theorem State.due_corrected (s : State) (t : Nat) (i : Instr) (x : Nat) : (s.due t i x).corrected = s.corrected := rfl
@[simp] theorem State.due_headers (s : State) (t : Nat) (i : Instr) (x : Nat) : (s.due t i x).headers = s.headers := rfl
@[simp] theorem State.due_banks (s : State) (t : Nat) (i : Instr) (x : Nat) : (s.due t i x).banks = s.banks := rfl
@[simp] theorem State.due_msgs (s : State) (t : Nat) (i : Instr) (x : Nat) : (s.due t i x).msgs = s.msgs := rfl
@[simp] theorem State.due_acks (s : State) (t : Nat) (i : Instr) (x : Nat) : (s.due t i x).acks = s.acks := rfl
@[simp] theorem State.due_scans (s : State) (t : Nat) (i : Instr) (x : Nat) : (s.due t i x).scans = s.scans := rfl
@[simp] theorem State.due_groups (s : State) (t : Nat) (i : Instr) (x : Nat) : (s.due t i x).groups = s.groups := rfl
@[simp] theorem State.due_lastStatus (s : State) (t : Nat) (i : Instr) (x : Nat) : (s.due t i x).lastStatus = s.lastStatus := rfl
@[simp] theorem State.due_flits (s : State) (t : Nat) (i : Instr) (x : Nat) : (s.due t i x).flits = s.flits := rfl
@[simp] theorem State.due_links (s : State) (t : Nat) (i : Instr) (x : Nat) : (s.due t i x).links = s.links := rfl
@[simp] theorem State.due_inbound (s : State) (t : Nat) (i : Instr) (x : Nat) : (s.due t i x).inbound = s.inbound := rfl
@[simp] theorem State.due_late (s : State) (t : Nat) (i : Instr) (x : Nat) : (s.due t i x).late = s.late := rfl
@[simp] theorem State.due_covers (s : State) (t : Nat) (i : Instr) (x : Nat) : (s.due t i x).covers = s.covers := rfl
@[simp] theorem State.due_inbox (s : State) (t : Nat) (i : Instr) (x : Nat) : (s.due t i x).inbox = s.inbox := rfl
@[simp] theorem State.due_bars (s : State) (t : Nat) (i : Instr) (x : Nat) : (s.due t i x).bars = s.bars := rfl
@[simp] theorem State.due_inputs (s : State) (t : Nat) (i : Instr) (x : Nat) : (s.due t i x).inputs = s.inputs := rfl
@[simp] theorem State.due_strokes (s : State) (t : Nat) (i : Instr) (x : Nat) : (s.due t i x).strokes = s.strokes := rfl
@[simp] theorem State.due_now (s : State) (t : Nat) (i : Instr) (x : Nat) : (s.due t i x).now = s.now := rfl
@[simp] theorem State.due_phase (s : State) (t : Nat) (i : Instr) (x : Nat) : (s.due t i x).phase = s.phase := rfl
@[simp] theorem State.due_subject (s : State) (t : Nat) (i : Instr) (x : Nat) : (s.due t i x).subject = s.subject := rfl
@[simp] theorem State.due_cur (s : State) (t : Nat) (i : Instr) (x : Nat) : (s.due t i x).cur = s.cur := rfl
@[simp] theorem State.due_fresh (s : State) (t : Nat) (i : Instr) (x : Nat) : (s.due t i x).fresh = s.fresh := rfl

/-! ### State.dropMsg -/

@[simp] theorem State.dropMsg_tide (s : State) (n : Nat) : (s.dropMsg n).tide = s.tide := rfl
@[simp] theorem State.dropMsg_boot (s : State) (n : Nat) : (s.dropMsg n).boot = s.boot := rfl
@[simp] theorem State.dropMsg_powered (s : State) (n : Nat) : (s.dropMsg n).powered = s.powered := rfl
@[simp] theorem State.dropMsg_plimit (s : State) (n : Nat) : (s.dropMsg n).plimit = s.plimit := rfl
@[simp] theorem State.dropMsg_watts (s : State) (n : Nat) : (s.dropMsg n).watts = s.watts := rfl
@[simp] theorem State.dropMsg_draw (s : State) (n : Nat) : (s.dropMsg n).draw = s.draw := rfl
@[simp] theorem State.dropMsg_drawn (s : State) (n : Nat) : (s.dropMsg n).drawn = s.drawn := rfl
@[simp] theorem State.dropMsg_drawnAt (s : State) (n : Nat) : (s.dropMsg n).drawnAt = s.drawnAt := rfl
@[simp] theorem State.dropMsg_celsius (s : State) (n : Nat) : (s.dropMsg n).celsius = s.celsius := rfl
@[simp] theorem State.dropMsg_skew (s : State) (n : Nat) : (s.dropMsg n).skew = s.skew := rfl
@[simp] theorem State.dropMsg_phold (s : State) (n : Nat) : (s.dropMsg n).phold = s.phold := rfl
@[simp] theorem State.dropMsg_thold (s : State) (n : Nat) : (s.dropMsg n).thold = s.thold := rfl
@[simp] theorem State.dropMsg_ttrip (s : State) (n : Nat) : (s.dropMsg n).ttrip = s.ttrip := rfl
@[simp] theorem State.dropMsg_misal (s : State) (n : Nat) : (s.dropMsg n).misal = s.misal := rfl
@[simp] theorem State.dropMsg_diepres (s : State) (n : Nat) : (s.dropMsg n).diepres = s.diepres := rfl
@[simp] theorem State.dropMsg_stkpres (s : State) (n : Nat) : (s.dropMsg n).stkpres = s.stkpres := rfl
@[simp] theorem State.dropMsg_bremap (s : State) (n : Nat) : (s.dropMsg n).bremap = s.bremap := rfl
@[simp] theorem State.dropMsg_route (s : State) (n : Nat) : (s.dropMsg n).route = s.route := rfl
@[simp] theorem State.dropMsg_iberr (s : State) (n : Nat) : (s.dropMsg n).iberr = s.iberr := rfl
@[simp] theorem State.dropMsg_ibsnd (s : State) (n : Nat) : (s.dropMsg n).ibsnd = s.ibsnd := rfl
@[simp] theorem State.dropMsg_kvp (s : State) (n : Nat) : (s.dropMsg n).kvp = s.kvp := rfl
@[simp] theorem State.dropMsg_rcvaddr (s : State) (n : Nat) : (s.dropMsg n).rcvaddr = s.rcvaddr := rfl
@[simp] theorem State.dropMsg_rcvlen (s : State) (n : Nat) : (s.dropMsg n).rcvlen = s.rcvlen := rfl
@[simp] theorem State.dropMsg_rcvcode (s : State) (n : Nat) : (s.dropMsg n).rcvcode = s.rcvcode := rfl
@[simp] theorem State.dropMsg_rcvwait (s : State) (n : Nat) : (s.dropMsg n).rcvwait = s.rcvwait := rfl
@[simp] theorem State.dropMsg_rcvimage (s : State) (n : Nat) : (s.dropMsg n).rcvimage = s.rcvimage := rfl
@[simp] theorem State.dropMsg_flash (s : State) (n : Nat) : (s.dropMsg n).flash = s.flash := rfl
@[simp] theorem State.dropMsg_image (s : State) (n : Nat) : (s.dropMsg n).image = s.image := rfl
@[simp] theorem State.dropMsg_resets (s : State) (n : Nat) : (s.dropMsg n).resets = s.resets := rfl
@[simp] theorem State.dropMsg_edgeDown (s : State) (n : Nat) : (s.dropMsg n).edgeDown = s.edgeDown := rfl
@[simp] theorem State.dropMsg_edgeErrors (s : State) (n : Nat) : (s.dropMsg n).edgeErrors = s.edgeErrors := rfl
@[simp] theorem State.dropMsg_stationUp (s : State) (n : Nat) : (s.dropMsg n).stationUp = s.stationUp := rfl
@[simp] theorem State.dropMsg_portUp (s : State) (n : Nat) : (s.dropMsg n).portUp = s.portUp := rfl
@[simp] theorem State.dropMsg_bindings (s : State) (n : Nat) : (s.dropMsg n).bindings = s.bindings := rfl
@[simp] theorem State.dropMsg_gathers (s : State) (n : Nat) : (s.dropMsg n).gathers = s.gathers := rfl
@[simp] theorem State.dropMsg_outgoing (s : State) (n : Nat) : (s.dropMsg n).outgoing = s.outgoing := rfl
@[simp] theorem State.dropMsg_etherDone (s : State) (n : Nat) : (s.dropMsg n).etherDone = s.etherDone := rfl
@[simp] theorem State.dropMsg_replies (s : State) (n : Nat) : (s.dropMsg n).replies = s.replies := rfl
@[simp] theorem State.dropMsg_funcs (s : State) (n : Nat) : (s.dropMsg n).funcs = s.funcs := rfl
@[simp] theorem State.dropMsg_queues (s : State) (n : Nat) : (s.dropMsg n).queues = s.queues := rfl
@[simp] theorem State.dropMsg_parts (s : State) (n : Nat) : (s.dropMsg n).parts = s.parts := rfl
@[simp] theorem State.dropMsg_owners (s : State) (n : Nat) : (s.dropMsg n).owners = s.owners := rfl
@[simp] theorem State.dropMsg_keys (s : State) (n : Nat) : (s.dropMsg n).keys = s.keys := rfl
@[simp] theorem State.dropMsg_locked (s : State) (n : Nat) : (s.dropMsg n).locked = s.locked := rfl
@[simp] theorem State.dropMsg_msix (s : State) (n : Nat) : (s.dropMsg n).msix = s.msix := rfl
@[simp] theorem State.dropMsg_dies (s : State) (n : Nat) : (s.dropMsg n).dies = s.dies := rfl
@[simp] theorem State.dropMsg_tasks (s : State) (n : Nat) : (s.dropMsg n).tasks = s.tasks := rfl
@[simp] theorem State.dropMsg_graphs (s : State) (n : Nat) : (s.dropMsg n).graphs = s.graphs := rfl
@[simp] theorem State.dropMsg_copies (s : State) (n : Nat) : (s.dropMsg n).copies = s.copies := rfl
@[simp] theorem State.dropMsg_cores (s : State) (n : Nat) : (s.dropMsg n).cores = s.cores := rfl
@[simp] theorem State.dropMsg_cohort (s : State) (n : Nat) : (s.dropMsg n).cohort = s.cohort := rfl
@[simp] theorem State.dropMsg_device (s : State) (n : Nat) : (s.dropMsg n).device = s.device := rfl
@[simp] theorem State.dropMsg_host (s : State) (n : Nat) : (s.dropMsg n).host = s.host := rfl
@[simp] theorem State.dropMsg_poison (s : State) (n : Nat) : (s.dropMsg n).poison = s.poison := rfl
@[simp] theorem State.dropMsg_corrected (s : State) (n : Nat) : (s.dropMsg n).corrected = s.corrected := rfl
@[simp] theorem State.dropMsg_headers (s : State) (n : Nat) : (s.dropMsg n).headers = s.headers := rfl
@[simp] theorem State.dropMsg_banks (s : State) (n : Nat) : (s.dropMsg n).banks = s.banks := rfl
@[simp] theorem State.dropMsg_acks (s : State) (n : Nat) : (s.dropMsg n).acks = s.acks := rfl
@[simp] theorem State.dropMsg_scans (s : State) (n : Nat) : (s.dropMsg n).scans = s.scans := rfl
@[simp] theorem State.dropMsg_groups (s : State) (n : Nat) : (s.dropMsg n).groups = s.groups := rfl
@[simp] theorem State.dropMsg_lastStatus (s : State) (n : Nat) : (s.dropMsg n).lastStatus = s.lastStatus := rfl
@[simp] theorem State.dropMsg_flits (s : State) (n : Nat) : (s.dropMsg n).flits = s.flits := rfl
@[simp] theorem State.dropMsg_links (s : State) (n : Nat) : (s.dropMsg n).links = s.links := rfl
@[simp] theorem State.dropMsg_inbound (s : State) (n : Nat) : (s.dropMsg n).inbound = s.inbound := rfl
@[simp] theorem State.dropMsg_late (s : State) (n : Nat) : (s.dropMsg n).late = s.late := rfl
@[simp] theorem State.dropMsg_covers (s : State) (n : Nat) : (s.dropMsg n).covers = s.covers := rfl
@[simp] theorem State.dropMsg_inbox (s : State) (n : Nat) : (s.dropMsg n).inbox = s.inbox := rfl
@[simp] theorem State.dropMsg_bars (s : State) (n : Nat) : (s.dropMsg n).bars = s.bars := rfl
@[simp] theorem State.dropMsg_agenda (s : State) (n : Nat) : (s.dropMsg n).agenda = s.agenda := rfl
@[simp] theorem State.dropMsg_inputs (s : State) (n : Nat) : (s.dropMsg n).inputs = s.inputs := rfl
@[simp] theorem State.dropMsg_strokes (s : State) (n : Nat) : (s.dropMsg n).strokes = s.strokes := rfl
@[simp] theorem State.dropMsg_now (s : State) (n : Nat) : (s.dropMsg n).now = s.now := rfl
@[simp] theorem State.dropMsg_phase (s : State) (n : Nat) : (s.dropMsg n).phase = s.phase := rfl
@[simp] theorem State.dropMsg_subject (s : State) (n : Nat) : (s.dropMsg n).subject = s.subject := rfl
@[simp] theorem State.dropMsg_cur (s : State) (n : Nat) : (s.dropMsg n).cur = s.cur := rfl
@[simp] theorem State.dropMsg_fresh (s : State) (n : Nat) : (s.dropMsg n).fresh = s.fresh := rfl

/-! ### State.setGroup -/

@[simp] theorem State.setGroup_tide (s : State) (y : Group) : (s.setGroup y).tide = s.tide := rfl
@[simp] theorem State.setGroup_boot (s : State) (y : Group) : (s.setGroup y).boot = s.boot := rfl
@[simp] theorem State.setGroup_powered (s : State) (y : Group) : (s.setGroup y).powered = s.powered := rfl
@[simp] theorem State.setGroup_plimit (s : State) (y : Group) : (s.setGroup y).plimit = s.plimit := rfl
@[simp] theorem State.setGroup_watts (s : State) (y : Group) : (s.setGroup y).watts = s.watts := rfl
@[simp] theorem State.setGroup_draw (s : State) (y : Group) : (s.setGroup y).draw = s.draw := rfl
@[simp] theorem State.setGroup_drawn (s : State) (y : Group) : (s.setGroup y).drawn = s.drawn := rfl
@[simp] theorem State.setGroup_drawnAt (s : State) (y : Group) : (s.setGroup y).drawnAt = s.drawnAt := rfl
@[simp] theorem State.setGroup_celsius (s : State) (y : Group) : (s.setGroup y).celsius = s.celsius := rfl
@[simp] theorem State.setGroup_skew (s : State) (y : Group) : (s.setGroup y).skew = s.skew := rfl
@[simp] theorem State.setGroup_phold (s : State) (y : Group) : (s.setGroup y).phold = s.phold := rfl
@[simp] theorem State.setGroup_thold (s : State) (y : Group) : (s.setGroup y).thold = s.thold := rfl
@[simp] theorem State.setGroup_ttrip (s : State) (y : Group) : (s.setGroup y).ttrip = s.ttrip := rfl
@[simp] theorem State.setGroup_misal (s : State) (y : Group) : (s.setGroup y).misal = s.misal := rfl
@[simp] theorem State.setGroup_diepres (s : State) (y : Group) : (s.setGroup y).diepres = s.diepres := rfl
@[simp] theorem State.setGroup_stkpres (s : State) (y : Group) : (s.setGroup y).stkpres = s.stkpres := rfl
@[simp] theorem State.setGroup_bremap (s : State) (y : Group) : (s.setGroup y).bremap = s.bremap := rfl
@[simp] theorem State.setGroup_route (s : State) (y : Group) : (s.setGroup y).route = s.route := rfl
@[simp] theorem State.setGroup_iberr (s : State) (y : Group) : (s.setGroup y).iberr = s.iberr := rfl
@[simp] theorem State.setGroup_ibsnd (s : State) (y : Group) : (s.setGroup y).ibsnd = s.ibsnd := rfl
@[simp] theorem State.setGroup_kvp (s : State) (y : Group) : (s.setGroup y).kvp = s.kvp := rfl
@[simp] theorem State.setGroup_rcvaddr (s : State) (y : Group) : (s.setGroup y).rcvaddr = s.rcvaddr := rfl
@[simp] theorem State.setGroup_rcvlen (s : State) (y : Group) : (s.setGroup y).rcvlen = s.rcvlen := rfl
@[simp] theorem State.setGroup_rcvcode (s : State) (y : Group) : (s.setGroup y).rcvcode = s.rcvcode := rfl
@[simp] theorem State.setGroup_rcvwait (s : State) (y : Group) : (s.setGroup y).rcvwait = s.rcvwait := rfl
@[simp] theorem State.setGroup_rcvimage (s : State) (y : Group) : (s.setGroup y).rcvimage = s.rcvimage := rfl
@[simp] theorem State.setGroup_flash (s : State) (y : Group) : (s.setGroup y).flash = s.flash := rfl
@[simp] theorem State.setGroup_image (s : State) (y : Group) : (s.setGroup y).image = s.image := rfl
@[simp] theorem State.setGroup_resets (s : State) (y : Group) : (s.setGroup y).resets = s.resets := rfl
@[simp] theorem State.setGroup_edgeDown (s : State) (y : Group) : (s.setGroup y).edgeDown = s.edgeDown := rfl
@[simp] theorem State.setGroup_edgeErrors (s : State) (y : Group) : (s.setGroup y).edgeErrors = s.edgeErrors := rfl
@[simp] theorem State.setGroup_stationUp (s : State) (y : Group) : (s.setGroup y).stationUp = s.stationUp := rfl
@[simp] theorem State.setGroup_portUp (s : State) (y : Group) : (s.setGroup y).portUp = s.portUp := rfl
@[simp] theorem State.setGroup_bindings (s : State) (y : Group) : (s.setGroup y).bindings = s.bindings := rfl
@[simp] theorem State.setGroup_gathers (s : State) (y : Group) : (s.setGroup y).gathers = s.gathers := rfl
@[simp] theorem State.setGroup_outgoing (s : State) (y : Group) : (s.setGroup y).outgoing = s.outgoing := rfl
@[simp] theorem State.setGroup_etherDone (s : State) (y : Group) : (s.setGroup y).etherDone = s.etherDone := rfl
@[simp] theorem State.setGroup_replies (s : State) (y : Group) : (s.setGroup y).replies = s.replies := rfl
@[simp] theorem State.setGroup_funcs (s : State) (y : Group) : (s.setGroup y).funcs = s.funcs := rfl
@[simp] theorem State.setGroup_queues (s : State) (y : Group) : (s.setGroup y).queues = s.queues := rfl
@[simp] theorem State.setGroup_parts (s : State) (y : Group) : (s.setGroup y).parts = s.parts := rfl
@[simp] theorem State.setGroup_owners (s : State) (y : Group) : (s.setGroup y).owners = s.owners := rfl
@[simp] theorem State.setGroup_keys (s : State) (y : Group) : (s.setGroup y).keys = s.keys := rfl
@[simp] theorem State.setGroup_locked (s : State) (y : Group) : (s.setGroup y).locked = s.locked := rfl
@[simp] theorem State.setGroup_msix (s : State) (y : Group) : (s.setGroup y).msix = s.msix := rfl
@[simp] theorem State.setGroup_dies (s : State) (y : Group) : (s.setGroup y).dies = s.dies := rfl
@[simp] theorem State.setGroup_tasks (s : State) (y : Group) : (s.setGroup y).tasks = s.tasks := rfl
@[simp] theorem State.setGroup_graphs (s : State) (y : Group) : (s.setGroup y).graphs = s.graphs := rfl
@[simp] theorem State.setGroup_copies (s : State) (y : Group) : (s.setGroup y).copies = s.copies := rfl
@[simp] theorem State.setGroup_cores (s : State) (y : Group) : (s.setGroup y).cores = s.cores := rfl
@[simp] theorem State.setGroup_cohort (s : State) (y : Group) : (s.setGroup y).cohort = s.cohort := rfl
@[simp] theorem State.setGroup_device (s : State) (y : Group) : (s.setGroup y).device = s.device := rfl
@[simp] theorem State.setGroup_host (s : State) (y : Group) : (s.setGroup y).host = s.host := rfl
@[simp] theorem State.setGroup_poison (s : State) (y : Group) : (s.setGroup y).poison = s.poison := rfl
@[simp] theorem State.setGroup_corrected (s : State) (y : Group) : (s.setGroup y).corrected = s.corrected := rfl
@[simp] theorem State.setGroup_headers (s : State) (y : Group) : (s.setGroup y).headers = s.headers := rfl
@[simp] theorem State.setGroup_banks (s : State) (y : Group) : (s.setGroup y).banks = s.banks := rfl
@[simp] theorem State.setGroup_msgs (s : State) (y : Group) : (s.setGroup y).msgs = s.msgs := rfl
@[simp] theorem State.setGroup_acks (s : State) (y : Group) : (s.setGroup y).acks = s.acks := rfl
@[simp] theorem State.setGroup_scans (s : State) (y : Group) : (s.setGroup y).scans = s.scans := rfl
@[simp] theorem State.setGroup_lastStatus (s : State) (y : Group) : (s.setGroup y).lastStatus = s.lastStatus := rfl
@[simp] theorem State.setGroup_flits (s : State) (y : Group) : (s.setGroup y).flits = s.flits := rfl
@[simp] theorem State.setGroup_links (s : State) (y : Group) : (s.setGroup y).links = s.links := rfl
@[simp] theorem State.setGroup_inbound (s : State) (y : Group) : (s.setGroup y).inbound = s.inbound := rfl
@[simp] theorem State.setGroup_late (s : State) (y : Group) : (s.setGroup y).late = s.late := rfl
@[simp] theorem State.setGroup_covers (s : State) (y : Group) : (s.setGroup y).covers = s.covers := rfl
@[simp] theorem State.setGroup_inbox (s : State) (y : Group) : (s.setGroup y).inbox = s.inbox := rfl
@[simp] theorem State.setGroup_bars (s : State) (y : Group) : (s.setGroup y).bars = s.bars := rfl
@[simp] theorem State.setGroup_agenda (s : State) (y : Group) : (s.setGroup y).agenda = s.agenda := rfl
@[simp] theorem State.setGroup_inputs (s : State) (y : Group) : (s.setGroup y).inputs = s.inputs := rfl
@[simp] theorem State.setGroup_strokes (s : State) (y : Group) : (s.setGroup y).strokes = s.strokes := rfl
@[simp] theorem State.setGroup_now (s : State) (y : Group) : (s.setGroup y).now = s.now := rfl
@[simp] theorem State.setGroup_phase (s : State) (y : Group) : (s.setGroup y).phase = s.phase := rfl
@[simp] theorem State.setGroup_subject (s : State) (y : Group) : (s.setGroup y).subject = s.subject := rfl
@[simp] theorem State.setGroup_cur (s : State) (y : Group) : (s.setGroup y).cur = s.cur := rfl
@[simp] theorem State.setGroup_fresh (s : State) (y : Group) : (s.setGroup y).fresh = s.fresh := rfl

/-! ### State.later -/

@[simp] theorem State.later_fresh (s : State) (n : Nat) : (s.later n).2.fresh = s.fresh + 1 := rfl
@[simp] theorem State.later_tide (s : State) (n : Nat) : (s.later n).2.tide = s.tide := rfl
@[simp] theorem State.later_boot (s : State) (n : Nat) : (s.later n).2.boot = s.boot := rfl
@[simp] theorem State.later_powered (s : State) (n : Nat) : (s.later n).2.powered = s.powered := rfl
@[simp] theorem State.later_plimit (s : State) (n : Nat) : (s.later n).2.plimit = s.plimit := rfl
@[simp] theorem State.later_watts (s : State) (n : Nat) : (s.later n).2.watts = s.watts := rfl
@[simp] theorem State.later_draw (s : State) (n : Nat) : (s.later n).2.draw = s.draw := rfl
@[simp] theorem State.later_drawn (s : State) (n : Nat) : (s.later n).2.drawn = s.drawn := rfl
@[simp] theorem State.later_drawnAt (s : State) (n : Nat) : (s.later n).2.drawnAt = s.drawnAt := rfl
@[simp] theorem State.later_celsius (s : State) (n : Nat) : (s.later n).2.celsius = s.celsius := rfl
@[simp] theorem State.later_skew (s : State) (n : Nat) : (s.later n).2.skew = s.skew := rfl
@[simp] theorem State.later_phold (s : State) (n : Nat) : (s.later n).2.phold = s.phold := rfl
@[simp] theorem State.later_thold (s : State) (n : Nat) : (s.later n).2.thold = s.thold := rfl
@[simp] theorem State.later_ttrip (s : State) (n : Nat) : (s.later n).2.ttrip = s.ttrip := rfl
@[simp] theorem State.later_misal (s : State) (n : Nat) : (s.later n).2.misal = s.misal := rfl
@[simp] theorem State.later_diepres (s : State) (n : Nat) : (s.later n).2.diepres = s.diepres := rfl
@[simp] theorem State.later_stkpres (s : State) (n : Nat) : (s.later n).2.stkpres = s.stkpres := rfl
@[simp] theorem State.later_bremap (s : State) (n : Nat) : (s.later n).2.bremap = s.bremap := rfl
@[simp] theorem State.later_route (s : State) (n : Nat) : (s.later n).2.route = s.route := rfl
@[simp] theorem State.later_iberr (s : State) (n : Nat) : (s.later n).2.iberr = s.iberr := rfl
@[simp] theorem State.later_ibsnd (s : State) (n : Nat) : (s.later n).2.ibsnd = s.ibsnd := rfl
@[simp] theorem State.later_kvp (s : State) (n : Nat) : (s.later n).2.kvp = s.kvp := rfl
@[simp] theorem State.later_rcvaddr (s : State) (n : Nat) : (s.later n).2.rcvaddr = s.rcvaddr := rfl
@[simp] theorem State.later_rcvlen (s : State) (n : Nat) : (s.later n).2.rcvlen = s.rcvlen := rfl
@[simp] theorem State.later_rcvcode (s : State) (n : Nat) : (s.later n).2.rcvcode = s.rcvcode := rfl
@[simp] theorem State.later_rcvwait (s : State) (n : Nat) : (s.later n).2.rcvwait = s.rcvwait := rfl
@[simp] theorem State.later_rcvimage (s : State) (n : Nat) : (s.later n).2.rcvimage = s.rcvimage := rfl
@[simp] theorem State.later_flash (s : State) (n : Nat) : (s.later n).2.flash = s.flash := rfl
@[simp] theorem State.later_image (s : State) (n : Nat) : (s.later n).2.image = s.image := rfl
@[simp] theorem State.later_resets (s : State) (n : Nat) : (s.later n).2.resets = s.resets := rfl
@[simp] theorem State.later_edgeDown (s : State) (n : Nat) : (s.later n).2.edgeDown = s.edgeDown := rfl
@[simp] theorem State.later_edgeErrors (s : State) (n : Nat) : (s.later n).2.edgeErrors = s.edgeErrors := rfl
@[simp] theorem State.later_stationUp (s : State) (n : Nat) : (s.later n).2.stationUp = s.stationUp := rfl
@[simp] theorem State.later_portUp (s : State) (n : Nat) : (s.later n).2.portUp = s.portUp := rfl
@[simp] theorem State.later_bindings (s : State) (n : Nat) : (s.later n).2.bindings = s.bindings := rfl
@[simp] theorem State.later_gathers (s : State) (n : Nat) : (s.later n).2.gathers = s.gathers := rfl
@[simp] theorem State.later_outgoing (s : State) (n : Nat) : (s.later n).2.outgoing = s.outgoing := rfl
@[simp] theorem State.later_etherDone (s : State) (n : Nat) : (s.later n).2.etherDone = s.etherDone := rfl
@[simp] theorem State.later_replies (s : State) (n : Nat) : (s.later n).2.replies = s.replies := rfl
@[simp] theorem State.later_funcs (s : State) (n : Nat) : (s.later n).2.funcs = s.funcs := rfl
@[simp] theorem State.later_queues (s : State) (n : Nat) : (s.later n).2.queues = s.queues := rfl
@[simp] theorem State.later_parts (s : State) (n : Nat) : (s.later n).2.parts = s.parts := rfl
@[simp] theorem State.later_owners (s : State) (n : Nat) : (s.later n).2.owners = s.owners := rfl
@[simp] theorem State.later_keys (s : State) (n : Nat) : (s.later n).2.keys = s.keys := rfl
@[simp] theorem State.later_locked (s : State) (n : Nat) : (s.later n).2.locked = s.locked := rfl
@[simp] theorem State.later_msix (s : State) (n : Nat) : (s.later n).2.msix = s.msix := rfl
@[simp] theorem State.later_dies (s : State) (n : Nat) : (s.later n).2.dies = s.dies := rfl
@[simp] theorem State.later_tasks (s : State) (n : Nat) : (s.later n).2.tasks = s.tasks := rfl
@[simp] theorem State.later_graphs (s : State) (n : Nat) : (s.later n).2.graphs = s.graphs := rfl
@[simp] theorem State.later_copies (s : State) (n : Nat) : (s.later n).2.copies = s.copies := rfl
@[simp] theorem State.later_cores (s : State) (n : Nat) : (s.later n).2.cores = s.cores := rfl
@[simp] theorem State.later_cohort (s : State) (n : Nat) : (s.later n).2.cohort = s.cohort := rfl
@[simp] theorem State.later_device (s : State) (n : Nat) : (s.later n).2.device = s.device := rfl
@[simp] theorem State.later_host (s : State) (n : Nat) : (s.later n).2.host = s.host := rfl
@[simp] theorem State.later_poison (s : State) (n : Nat) : (s.later n).2.poison = s.poison := rfl
@[simp] theorem State.later_corrected (s : State) (n : Nat) : (s.later n).2.corrected = s.corrected := rfl
@[simp] theorem State.later_headers (s : State) (n : Nat) : (s.later n).2.headers = s.headers := rfl
@[simp] theorem State.later_banks (s : State) (n : Nat) : (s.later n).2.banks = s.banks := rfl
@[simp] theorem State.later_msgs (s : State) (n : Nat) : (s.later n).2.msgs = s.msgs := rfl
@[simp] theorem State.later_acks (s : State) (n : Nat) : (s.later n).2.acks = s.acks := rfl
@[simp] theorem State.later_scans (s : State) (n : Nat) : (s.later n).2.scans = s.scans := rfl
@[simp] theorem State.later_groups (s : State) (n : Nat) : (s.later n).2.groups = s.groups := rfl
@[simp] theorem State.later_lastStatus (s : State) (n : Nat) : (s.later n).2.lastStatus = s.lastStatus := rfl
@[simp] theorem State.later_flits (s : State) (n : Nat) : (s.later n).2.flits = s.flits := rfl
@[simp] theorem State.later_links (s : State) (n : Nat) : (s.later n).2.links = s.links := rfl
@[simp] theorem State.later_inbound (s : State) (n : Nat) : (s.later n).2.inbound = s.inbound := rfl
@[simp] theorem State.later_late (s : State) (n : Nat) : (s.later n).2.late = s.late := rfl
@[simp] theorem State.later_covers (s : State) (n : Nat) : (s.later n).2.covers = s.covers := rfl
@[simp] theorem State.later_inbox (s : State) (n : Nat) : (s.later n).2.inbox = s.inbox := rfl
@[simp] theorem State.later_bars (s : State) (n : Nat) : (s.later n).2.bars = s.bars := rfl
@[simp] theorem State.later_agenda (s : State) (n : Nat) : (s.later n).2.agenda = s.agenda := rfl
@[simp] theorem State.later_inputs (s : State) (n : Nat) : (s.later n).2.inputs = s.inputs := rfl
@[simp] theorem State.later_strokes (s : State) (n : Nat) : (s.later n).2.strokes = s.strokes := rfl
@[simp] theorem State.later_now (s : State) (n : Nat) : (s.later n).2.now = s.now := rfl
@[simp] theorem State.later_phase (s : State) (n : Nat) : (s.later n).2.phase = s.phase := rfl
@[simp] theorem State.later_subject (s : State) (n : Nat) : (s.later n).2.subject = s.subject := rfl
@[simp] theorem State.later_cur (s : State) (n : Nat) : (s.later n).2.cur = s.cur := rfl

/-! ### State.number -/

@[simp] theorem State.number_fresh (s : State) : s.number.2.fresh = s.fresh + 1 := rfl
@[simp] theorem State.number_tide (s : State) : s.number.2.tide = s.tide := rfl
@[simp] theorem State.number_boot (s : State) : s.number.2.boot = s.boot := rfl
@[simp] theorem State.number_powered (s : State) : s.number.2.powered = s.powered := rfl
@[simp] theorem State.number_plimit (s : State) : s.number.2.plimit = s.plimit := rfl
@[simp] theorem State.number_watts (s : State) : s.number.2.watts = s.watts := rfl
@[simp] theorem State.number_draw (s : State) : s.number.2.draw = s.draw := rfl
@[simp] theorem State.number_drawn (s : State) : s.number.2.drawn = s.drawn := rfl
@[simp] theorem State.number_drawnAt (s : State) : s.number.2.drawnAt = s.drawnAt := rfl
@[simp] theorem State.number_celsius (s : State) : s.number.2.celsius = s.celsius := rfl
@[simp] theorem State.number_skew (s : State) : s.number.2.skew = s.skew := rfl
@[simp] theorem State.number_phold (s : State) : s.number.2.phold = s.phold := rfl
@[simp] theorem State.number_thold (s : State) : s.number.2.thold = s.thold := rfl
@[simp] theorem State.number_ttrip (s : State) : s.number.2.ttrip = s.ttrip := rfl
@[simp] theorem State.number_misal (s : State) : s.number.2.misal = s.misal := rfl
@[simp] theorem State.number_diepres (s : State) : s.number.2.diepres = s.diepres := rfl
@[simp] theorem State.number_stkpres (s : State) : s.number.2.stkpres = s.stkpres := rfl
@[simp] theorem State.number_bremap (s : State) : s.number.2.bremap = s.bremap := rfl
@[simp] theorem State.number_route (s : State) : s.number.2.route = s.route := rfl
@[simp] theorem State.number_iberr (s : State) : s.number.2.iberr = s.iberr := rfl
@[simp] theorem State.number_ibsnd (s : State) : s.number.2.ibsnd = s.ibsnd := rfl
@[simp] theorem State.number_kvp (s : State) : s.number.2.kvp = s.kvp := rfl
@[simp] theorem State.number_rcvaddr (s : State) : s.number.2.rcvaddr = s.rcvaddr := rfl
@[simp] theorem State.number_rcvlen (s : State) : s.number.2.rcvlen = s.rcvlen := rfl
@[simp] theorem State.number_rcvcode (s : State) : s.number.2.rcvcode = s.rcvcode := rfl
@[simp] theorem State.number_rcvwait (s : State) : s.number.2.rcvwait = s.rcvwait := rfl
@[simp] theorem State.number_rcvimage (s : State) : s.number.2.rcvimage = s.rcvimage := rfl
@[simp] theorem State.number_flash (s : State) : s.number.2.flash = s.flash := rfl
@[simp] theorem State.number_image (s : State) : s.number.2.image = s.image := rfl
@[simp] theorem State.number_resets (s : State) : s.number.2.resets = s.resets := rfl
@[simp] theorem State.number_edgeDown (s : State) : s.number.2.edgeDown = s.edgeDown := rfl
@[simp] theorem State.number_edgeErrors (s : State) : s.number.2.edgeErrors = s.edgeErrors := rfl
@[simp] theorem State.number_stationUp (s : State) : s.number.2.stationUp = s.stationUp := rfl
@[simp] theorem State.number_portUp (s : State) : s.number.2.portUp = s.portUp := rfl
@[simp] theorem State.number_bindings (s : State) : s.number.2.bindings = s.bindings := rfl
@[simp] theorem State.number_gathers (s : State) : s.number.2.gathers = s.gathers := rfl
@[simp] theorem State.number_outgoing (s : State) : s.number.2.outgoing = s.outgoing := rfl
@[simp] theorem State.number_etherDone (s : State) : s.number.2.etherDone = s.etherDone := rfl
@[simp] theorem State.number_replies (s : State) : s.number.2.replies = s.replies := rfl
@[simp] theorem State.number_funcs (s : State) : s.number.2.funcs = s.funcs := rfl
@[simp] theorem State.number_queues (s : State) : s.number.2.queues = s.queues := rfl
@[simp] theorem State.number_parts (s : State) : s.number.2.parts = s.parts := rfl
@[simp] theorem State.number_owners (s : State) : s.number.2.owners = s.owners := rfl
@[simp] theorem State.number_keys (s : State) : s.number.2.keys = s.keys := rfl
@[simp] theorem State.number_locked (s : State) : s.number.2.locked = s.locked := rfl
@[simp] theorem State.number_msix (s : State) : s.number.2.msix = s.msix := rfl
@[simp] theorem State.number_dies (s : State) : s.number.2.dies = s.dies := rfl
@[simp] theorem State.number_tasks (s : State) : s.number.2.tasks = s.tasks := rfl
@[simp] theorem State.number_graphs (s : State) : s.number.2.graphs = s.graphs := rfl
@[simp] theorem State.number_copies (s : State) : s.number.2.copies = s.copies := rfl
@[simp] theorem State.number_cores (s : State) : s.number.2.cores = s.cores := rfl
@[simp] theorem State.number_cohort (s : State) : s.number.2.cohort = s.cohort := rfl
@[simp] theorem State.number_device (s : State) : s.number.2.device = s.device := rfl
@[simp] theorem State.number_host (s : State) : s.number.2.host = s.host := rfl
@[simp] theorem State.number_poison (s : State) : s.number.2.poison = s.poison := rfl
@[simp] theorem State.number_corrected (s : State) : s.number.2.corrected = s.corrected := rfl
@[simp] theorem State.number_headers (s : State) : s.number.2.headers = s.headers := rfl
@[simp] theorem State.number_banks (s : State) : s.number.2.banks = s.banks := rfl
@[simp] theorem State.number_msgs (s : State) : s.number.2.msgs = s.msgs := rfl
@[simp] theorem State.number_acks (s : State) : s.number.2.acks = s.acks := rfl
@[simp] theorem State.number_scans (s : State) : s.number.2.scans = s.scans := rfl
@[simp] theorem State.number_groups (s : State) : s.number.2.groups = s.groups := rfl
@[simp] theorem State.number_lastStatus (s : State) : s.number.2.lastStatus = s.lastStatus := rfl
@[simp] theorem State.number_flits (s : State) : s.number.2.flits = s.flits := rfl
@[simp] theorem State.number_links (s : State) : s.number.2.links = s.links := rfl
@[simp] theorem State.number_inbound (s : State) : s.number.2.inbound = s.inbound := rfl
@[simp] theorem State.number_late (s : State) : s.number.2.late = s.late := rfl
@[simp] theorem State.number_covers (s : State) : s.number.2.covers = s.covers := rfl
@[simp] theorem State.number_inbox (s : State) : s.number.2.inbox = s.inbox := rfl
@[simp] theorem State.number_bars (s : State) : s.number.2.bars = s.bars := rfl
@[simp] theorem State.number_agenda (s : State) : s.number.2.agenda = s.agenda := rfl
@[simp] theorem State.number_inputs (s : State) : s.number.2.inputs = s.inputs := rfl
@[simp] theorem State.number_strokes (s : State) : s.number.2.strokes = s.strokes := rfl
@[simp] theorem State.number_now (s : State) : s.number.2.now = s.now := rfl
@[simp] theorem State.number_phase (s : State) : s.number.2.phase = s.phase := rfl
@[simp] theorem State.number_subject (s : State) : s.number.2.subject = s.subject := rfl
@[simp] theorem State.number_cur (s : State) : s.number.2.cur = s.cur := rfl

/-! ### Core.setTile -/

@[simp] theorem Core.setTile_task (k : Core) (n : Nat) (x : Tile) : (k.setTile n x).task = k.task := rfl
@[simp] theorem Core.setTile_vid (k : Core) (n : Nat) (x : Tile) : (k.setTile n x).vid = k.vid := rfl
@[simp] theorem Core.setTile_gidx (k : Core) (n : Nat) (x : Tile) : (k.setTile n x).gidx = k.gidx := rfl
@[simp] theorem Core.setTile_part (k : Core) (n : Nat) (x : Tile) : (k.setTile n x).part = k.part := rfl
@[simp] theorem Core.setTile_mode (k : Core) (n : Nat) (x : Tile) : (k.setTile n x).mode = k.mode := rfl
@[simp] theorem Core.setTile_sreg (k : Core) (n : Nat) (x : Tile) : (k.setTile n x).sreg = k.sreg := rfl
@[simp] theorem Core.setTile_pend (k : Core) (n : Nat) (x : Tile) : (k.setTile n x).pend = k.pend := rfl
@[simp] theorem Core.setTile_acc (k : Core) (n : Nat) (x : Tile) : (k.setTile n x).acc = k.acc := rfl
@[simp] theorem Core.setTile_planes (k : Core) (n : Nat) (x : Tile) : (k.setTile n x).planes = k.planes := rfl
@[simp] theorem Core.setTile_act (k : Core) (n : Nat) (x : Tile) : (k.setTile n x).act = k.act := rfl
@[simp] theorem Core.setTile_occ (k : Core) (n : Nat) (x : Tile) : (k.setTile n x).occ = k.occ := rfl
@[simp] theorem Core.setTile_mbuf (k : Core) (n : Nat) (x : Tile) : (k.setTile n x).mbuf = k.mbuf := rfl
@[simp] theorem Core.setTile_scratch (k : Core) (n : Nat) (x : Tile) : (k.setTile n x).scratch = k.scratch := rfl
@[simp] theorem Core.setTile_rings (k : Core) (n : Nat) (x : Tile) : (k.setTile n x).rings = k.rings := rfl
@[simp] theorem Core.setTile_flags (k : Core) (n : Nat) (x : Tile) : (k.setTile n x).flags = k.flags := rfl
@[simp] theorem Core.setTile_vheap (k : Core) (n : Nat) (x : Tile) : (k.setTile n x).vheap = k.vheap := rfl
@[simp] theorem Core.setTile_blocks (k : Core) (n : Nat) (x : Tile) : (k.setTile n x).blocks = k.blocks := rfl
@[simp] theorem Core.setTile_reuse (k : Core) (n : Nat) (x : Tile) : (k.setTile n x).reuse = k.reuse := rfl
@[simp] theorem Core.setTile_tbase (k : Core) (n : Nat) (x : Tile) : (k.setTile n x).tbase = k.tbase := rfl
@[simp] theorem Core.setTile_slip (k : Core) (n : Nat) (x : Tile) : (k.setTile n x).slip = k.slip := rfl
@[simp] theorem Core.setTile_hmode (k : Core) (n : Nat) (x : Tile) : (k.setTile n x).hmode = k.hmode := rfl
@[simp] theorem Core.setTile_fcause (k : Core) (n : Nat) (x : Tile) : (k.setTile n x).fcause = k.fcause := rfl
@[simp] theorem Core.setTile_finfo (k : Core) (n : Nat) (x : Tile) : (k.setTile n x).finfo = k.finfo := rfl
@[simp] theorem Core.setTile_ffr (k : Core) (n : Nat) (x : Tile) : (k.setTile n x).ffr = k.ffr := rfl
@[simp] theorem Core.setTile_trapvec (k : Core) (n : Nat) (x : Tile) : (k.setTile n x).trapvec = k.trapvec := rfl
@[simp] theorem Core.setTile_tsave (k : Core) (n : Nat) (x : Tile) : (k.setTile n x).tsave = k.tsave := rfl
@[simp] theorem Core.setTile_parea (k : Core) (n : Nat) (x : Tile) : (k.setTile n x).parea = k.parea := rfl
@[simp] theorem Core.setTile_fflags (k : Core) (n : Nat) (x : Tile) : (k.setTile n x).fflags = k.fflags := rfl
@[simp] theorem Core.setTile_sr (k : Core) (n : Nat) (x : Tile) : (k.setTile n x).sr = k.sr := rfl
@[simp] theorem Core.setTile_rmodes (k : Core) (n : Nat) (x : Tile) : (k.setTile n x).rmodes = k.rmodes := rfl
@[simp] theorem Core.setTile_chains (k : Core) (n : Nat) (x : Tile) : (k.setTile n x).chains = k.chains := rfl
@[simp] theorem Core.setTile_kvseg (k : Core) (n : Nat) (x : Tile) : (k.setTile n x).kvseg = k.kvseg := rfl
@[simp] theorem Core.setTile_tlb (k : Core) (n : Nat) (x : Tile) : (k.setTile n x).tlb = k.tlb := rfl
@[simp] theorem Core.setTile_istore (k : Core) (n : Nat) (x : Tile) : (k.setTile n x).istore = k.istore := rfl
@[simp] theorem Core.setTile_lease (k : Core) (n : Nat) (x : Tile) : (k.setTile n x).lease = k.lease := rfl
@[simp] theorem Core.setTile_stream (k : Core) (n : Nat) (x : Tile) : (k.setTile n x).stream = k.stream := rfl
@[simp] theorem Core.setTile_saved (k : Core) (n : Nat) (x : Tile) : (k.setTile n x).saved = k.saved := rfl
@[simp] theorem Core.setTile_inflight (k : Core) (n : Nat) (x : Tile) : (k.setTile n x).inflight = k.inflight := rfl
@[simp] theorem Core.setTile_captured (k : Core) (n : Nat) (x : Tile) : (k.setTile n x).captured = k.captured := rfl
@[simp] theorem Core.setTile_checked (k : Core) (n : Nat) (x : Tile) : (k.setTile n x).checked = k.checked := rfl
@[simp] theorem Core.setTile_walk (k : Core) (n : Nat) (x : Tile) : (k.setTile n x).walk = k.walk := rfl
@[simp] theorem Core.setTile_reqs (k : Core) (n : Nat) (x : Tile) : (k.setTile n x).reqs = k.reqs := rfl
@[simp] theorem Core.setTile_near (k : Core) (n : Nat) (x : Tile) : (k.setTile n x).near = k.near := rfl
@[simp] theorem Core.setTile_cmds (k : Core) (n : Nat) (x : Tile) : (k.setTile n x).cmds = k.cmds := rfl
@[simp] theorem Core.setTile_services (k : Core) (n : Nat) (x : Tile) : (k.setTile n x).services = k.services := rfl
@[simp] theorem Core.setTile_arriving (k : Core) (n : Nat) (x : Tile) : (k.setTile n x).arriving = k.arriving := rfl
@[simp] theorem Core.setTile_epi (k : Core) (n : Nat) (x : Tile) : (k.setTile n x).epi = k.epi := rfl
@[simp] theorem Core.setTile_stopAt (k : Core) (n : Nat) (x : Tile) : (k.setTile n x).stopAt = k.stopAt := rfl
@[simp] theorem Core.setTile_gateOpen (k : Core) (n : Nat) (x : Tile) : (k.setTile n x).gateOpen = k.gateOpen := rfl
@[simp] theorem Core.setTile_haltTide (k : Core) (n : Nat) (x : Tile) : (k.setTile n x).haltTide = k.haltTide := rfl
@[simp] theorem Core.setTile_kbase (k : Core) (n : Nat) (x : Tile) : (k.setTile n x).kbase = k.kbase := rfl
@[simp] theorem Core.setTile_started (k : Core) (n : Nat) (x : Tile) : (k.setTile n x).started = k.started := rfl
@[simp] theorem Core.setTile_ackedAt (k : Core) (n : Nat) (x : Tile) : (k.setTile n x).ackedAt = k.ackedAt := rfl
@[simp] theorem Core.setTile_fencedAt (k : Core) (n : Nat) (x : Tile) : (k.setTile n x).fencedAt = k.fencedAt := rfl
@[simp] theorem Core.setTile_bankUse (k : Core) (n : Nat) (x : Tile) : (k.setTile n x).bankUse = k.bankUse := rfl
@[simp] theorem Core.setTile_wentQuiet (k : Core) (n : Nat) (x : Tile) : (k.setTile n x).wentQuiet = k.wentQuiet := rfl
@[simp] theorem Core.setTile_ahead (k : Core) (n : Nat) (x : Tile) : (k.setTile n x).ahead = k.ahead := rfl
@[simp] theorem Core.setTile_ord (k : Core) (n : Nat) (x : Tile) : (k.setTile n x).ord = k.ord := rfl

/-! ### Core.setRing -/

@[simp] theorem Core.setRing_task (k : Core) (n : Nat) (x : Ring) : (k.setRing n x).task = k.task := rfl
@[simp] theorem Core.setRing_vid (k : Core) (n : Nat) (x : Ring) : (k.setRing n x).vid = k.vid := rfl
@[simp] theorem Core.setRing_gidx (k : Core) (n : Nat) (x : Ring) : (k.setRing n x).gidx = k.gidx := rfl
@[simp] theorem Core.setRing_part (k : Core) (n : Nat) (x : Ring) : (k.setRing n x).part = k.part := rfl
@[simp] theorem Core.setRing_mode (k : Core) (n : Nat) (x : Ring) : (k.setRing n x).mode = k.mode := rfl
@[simp] theorem Core.setRing_sreg (k : Core) (n : Nat) (x : Ring) : (k.setRing n x).sreg = k.sreg := rfl
@[simp] theorem Core.setRing_pend (k : Core) (n : Nat) (x : Ring) : (k.setRing n x).pend = k.pend := rfl
@[simp] theorem Core.setRing_tiles (k : Core) (n : Nat) (x : Ring) : (k.setRing n x).tiles = k.tiles := rfl
@[simp] theorem Core.setRing_acc (k : Core) (n : Nat) (x : Ring) : (k.setRing n x).acc = k.acc := rfl
@[simp] theorem Core.setRing_planes (k : Core) (n : Nat) (x : Ring) : (k.setRing n x).planes = k.planes := rfl
@[simp] theorem Core.setRing_act (k : Core) (n : Nat) (x : Ring) : (k.setRing n x).act = k.act := rfl
@[simp] theorem Core.setRing_occ (k : Core) (n : Nat) (x : Ring) : (k.setRing n x).occ = k.occ := rfl
@[simp] theorem Core.setRing_mbuf (k : Core) (n : Nat) (x : Ring) : (k.setRing n x).mbuf = k.mbuf := rfl
@[simp] theorem Core.setRing_scratch (k : Core) (n : Nat) (x : Ring) : (k.setRing n x).scratch = k.scratch := rfl
@[simp] theorem Core.setRing_flags (k : Core) (n : Nat) (x : Ring) : (k.setRing n x).flags = k.flags := rfl
@[simp] theorem Core.setRing_vheap (k : Core) (n : Nat) (x : Ring) : (k.setRing n x).vheap = k.vheap := rfl
@[simp] theorem Core.setRing_blocks (k : Core) (n : Nat) (x : Ring) : (k.setRing n x).blocks = k.blocks := rfl
@[simp] theorem Core.setRing_reuse (k : Core) (n : Nat) (x : Ring) : (k.setRing n x).reuse = k.reuse := rfl
@[simp] theorem Core.setRing_tbase (k : Core) (n : Nat) (x : Ring) : (k.setRing n x).tbase = k.tbase := rfl
@[simp] theorem Core.setRing_slip (k : Core) (n : Nat) (x : Ring) : (k.setRing n x).slip = k.slip := rfl
@[simp] theorem Core.setRing_hmode (k : Core) (n : Nat) (x : Ring) : (k.setRing n x).hmode = k.hmode := rfl
@[simp] theorem Core.setRing_fcause (k : Core) (n : Nat) (x : Ring) : (k.setRing n x).fcause = k.fcause := rfl
@[simp] theorem Core.setRing_finfo (k : Core) (n : Nat) (x : Ring) : (k.setRing n x).finfo = k.finfo := rfl
@[simp] theorem Core.setRing_ffr (k : Core) (n : Nat) (x : Ring) : (k.setRing n x).ffr = k.ffr := rfl
@[simp] theorem Core.setRing_trapvec (k : Core) (n : Nat) (x : Ring) : (k.setRing n x).trapvec = k.trapvec := rfl
@[simp] theorem Core.setRing_tsave (k : Core) (n : Nat) (x : Ring) : (k.setRing n x).tsave = k.tsave := rfl
@[simp] theorem Core.setRing_parea (k : Core) (n : Nat) (x : Ring) : (k.setRing n x).parea = k.parea := rfl
@[simp] theorem Core.setRing_fflags (k : Core) (n : Nat) (x : Ring) : (k.setRing n x).fflags = k.fflags := rfl
@[simp] theorem Core.setRing_sr (k : Core) (n : Nat) (x : Ring) : (k.setRing n x).sr = k.sr := rfl
@[simp] theorem Core.setRing_rmodes (k : Core) (n : Nat) (x : Ring) : (k.setRing n x).rmodes = k.rmodes := rfl
@[simp] theorem Core.setRing_chains (k : Core) (n : Nat) (x : Ring) : (k.setRing n x).chains = k.chains := rfl
@[simp] theorem Core.setRing_kvseg (k : Core) (n : Nat) (x : Ring) : (k.setRing n x).kvseg = k.kvseg := rfl
@[simp] theorem Core.setRing_tlb (k : Core) (n : Nat) (x : Ring) : (k.setRing n x).tlb = k.tlb := rfl
@[simp] theorem Core.setRing_istore (k : Core) (n : Nat) (x : Ring) : (k.setRing n x).istore = k.istore := rfl
@[simp] theorem Core.setRing_lease (k : Core) (n : Nat) (x : Ring) : (k.setRing n x).lease = k.lease := rfl
@[simp] theorem Core.setRing_stream (k : Core) (n : Nat) (x : Ring) : (k.setRing n x).stream = k.stream := rfl
@[simp] theorem Core.setRing_saved (k : Core) (n : Nat) (x : Ring) : (k.setRing n x).saved = k.saved := rfl
@[simp] theorem Core.setRing_inflight (k : Core) (n : Nat) (x : Ring) : (k.setRing n x).inflight = k.inflight := rfl
@[simp] theorem Core.setRing_captured (k : Core) (n : Nat) (x : Ring) : (k.setRing n x).captured = k.captured := rfl
@[simp] theorem Core.setRing_checked (k : Core) (n : Nat) (x : Ring) : (k.setRing n x).checked = k.checked := rfl
@[simp] theorem Core.setRing_walk (k : Core) (n : Nat) (x : Ring) : (k.setRing n x).walk = k.walk := rfl
@[simp] theorem Core.setRing_reqs (k : Core) (n : Nat) (x : Ring) : (k.setRing n x).reqs = k.reqs := rfl
@[simp] theorem Core.setRing_near (k : Core) (n : Nat) (x : Ring) : (k.setRing n x).near = k.near := rfl
@[simp] theorem Core.setRing_cmds (k : Core) (n : Nat) (x : Ring) : (k.setRing n x).cmds = k.cmds := rfl
@[simp] theorem Core.setRing_services (k : Core) (n : Nat) (x : Ring) : (k.setRing n x).services = k.services := rfl
@[simp] theorem Core.setRing_arriving (k : Core) (n : Nat) (x : Ring) : (k.setRing n x).arriving = k.arriving := rfl
@[simp] theorem Core.setRing_epi (k : Core) (n : Nat) (x : Ring) : (k.setRing n x).epi = k.epi := rfl
@[simp] theorem Core.setRing_stopAt (k : Core) (n : Nat) (x : Ring) : (k.setRing n x).stopAt = k.stopAt := rfl
@[simp] theorem Core.setRing_gateOpen (k : Core) (n : Nat) (x : Ring) : (k.setRing n x).gateOpen = k.gateOpen := rfl
@[simp] theorem Core.setRing_haltTide (k : Core) (n : Nat) (x : Ring) : (k.setRing n x).haltTide = k.haltTide := rfl
@[simp] theorem Core.setRing_kbase (k : Core) (n : Nat) (x : Ring) : (k.setRing n x).kbase = k.kbase := rfl
@[simp] theorem Core.setRing_started (k : Core) (n : Nat) (x : Ring) : (k.setRing n x).started = k.started := rfl
@[simp] theorem Core.setRing_ackedAt (k : Core) (n : Nat) (x : Ring) : (k.setRing n x).ackedAt = k.ackedAt := rfl
@[simp] theorem Core.setRing_fencedAt (k : Core) (n : Nat) (x : Ring) : (k.setRing n x).fencedAt = k.fencedAt := rfl
@[simp] theorem Core.setRing_bankUse (k : Core) (n : Nat) (x : Ring) : (k.setRing n x).bankUse = k.bankUse := rfl
@[simp] theorem Core.setRing_wentQuiet (k : Core) (n : Nat) (x : Ring) : (k.setRing n x).wentQuiet = k.wentQuiet := rfl
@[simp] theorem Core.setRing_ahead (k : Core) (n : Nat) (x : Ring) : (k.setRing n x).ahead = k.ahead := rfl
@[simp] theorem Core.setRing_ord (k : Core) (n : Nat) (x : Ring) : (k.setRing n x).ord = k.ord := rfl

/-! ### Core.setQueue -/

@[simp] theorem Core.setQueue_task (k : Core) (n : Nat) (x : Queue) : (k.setQueue n x).task = k.task := rfl
@[simp] theorem Core.setQueue_vid (k : Core) (n : Nat) (x : Queue) : (k.setQueue n x).vid = k.vid := rfl
@[simp] theorem Core.setQueue_gidx (k : Core) (n : Nat) (x : Queue) : (k.setQueue n x).gidx = k.gidx := rfl
@[simp] theorem Core.setQueue_part (k : Core) (n : Nat) (x : Queue) : (k.setQueue n x).part = k.part := rfl
@[simp] theorem Core.setQueue_mode (k : Core) (n : Nat) (x : Queue) : (k.setQueue n x).mode = k.mode := rfl
@[simp] theorem Core.setQueue_sreg (k : Core) (n : Nat) (x : Queue) : (k.setQueue n x).sreg = k.sreg := rfl
@[simp] theorem Core.setQueue_pend (k : Core) (n : Nat) (x : Queue) : (k.setQueue n x).pend = k.pend := rfl
@[simp] theorem Core.setQueue_tiles (k : Core) (n : Nat) (x : Queue) : (k.setQueue n x).tiles = k.tiles := rfl
@[simp] theorem Core.setQueue_acc (k : Core) (n : Nat) (x : Queue) : (k.setQueue n x).acc = k.acc := rfl
@[simp] theorem Core.setQueue_planes (k : Core) (n : Nat) (x : Queue) : (k.setQueue n x).planes = k.planes := rfl
@[simp] theorem Core.setQueue_act (k : Core) (n : Nat) (x : Queue) : (k.setQueue n x).act = k.act := rfl
@[simp] theorem Core.setQueue_occ (k : Core) (n : Nat) (x : Queue) : (k.setQueue n x).occ = k.occ := rfl
@[simp] theorem Core.setQueue_mbuf (k : Core) (n : Nat) (x : Queue) : (k.setQueue n x).mbuf = k.mbuf := rfl
@[simp] theorem Core.setQueue_scratch (k : Core) (n : Nat) (x : Queue) : (k.setQueue n x).scratch = k.scratch := rfl
@[simp] theorem Core.setQueue_rings (k : Core) (n : Nat) (x : Queue) : (k.setQueue n x).rings = k.rings := rfl
@[simp] theorem Core.setQueue_flags (k : Core) (n : Nat) (x : Queue) : (k.setQueue n x).flags = k.flags := rfl
@[simp] theorem Core.setQueue_vheap (k : Core) (n : Nat) (x : Queue) : (k.setQueue n x).vheap = k.vheap := rfl
@[simp] theorem Core.setQueue_blocks (k : Core) (n : Nat) (x : Queue) : (k.setQueue n x).blocks = k.blocks := rfl
@[simp] theorem Core.setQueue_reuse (k : Core) (n : Nat) (x : Queue) : (k.setQueue n x).reuse = k.reuse := rfl
@[simp] theorem Core.setQueue_tbase (k : Core) (n : Nat) (x : Queue) : (k.setQueue n x).tbase = k.tbase := rfl
@[simp] theorem Core.setQueue_slip (k : Core) (n : Nat) (x : Queue) : (k.setQueue n x).slip = k.slip := rfl
@[simp] theorem Core.setQueue_hmode (k : Core) (n : Nat) (x : Queue) : (k.setQueue n x).hmode = k.hmode := rfl
@[simp] theorem Core.setQueue_fcause (k : Core) (n : Nat) (x : Queue) : (k.setQueue n x).fcause = k.fcause := rfl
@[simp] theorem Core.setQueue_finfo (k : Core) (n : Nat) (x : Queue) : (k.setQueue n x).finfo = k.finfo := rfl
@[simp] theorem Core.setQueue_ffr (k : Core) (n : Nat) (x : Queue) : (k.setQueue n x).ffr = k.ffr := rfl
@[simp] theorem Core.setQueue_trapvec (k : Core) (n : Nat) (x : Queue) : (k.setQueue n x).trapvec = k.trapvec := rfl
@[simp] theorem Core.setQueue_tsave (k : Core) (n : Nat) (x : Queue) : (k.setQueue n x).tsave = k.tsave := rfl
@[simp] theorem Core.setQueue_parea (k : Core) (n : Nat) (x : Queue) : (k.setQueue n x).parea = k.parea := rfl
@[simp] theorem Core.setQueue_fflags (k : Core) (n : Nat) (x : Queue) : (k.setQueue n x).fflags = k.fflags := rfl
@[simp] theorem Core.setQueue_sr (k : Core) (n : Nat) (x : Queue) : (k.setQueue n x).sr = k.sr := rfl
@[simp] theorem Core.setQueue_rmodes (k : Core) (n : Nat) (x : Queue) : (k.setQueue n x).rmodes = k.rmodes := rfl
@[simp] theorem Core.setQueue_chains (k : Core) (n : Nat) (x : Queue) : (k.setQueue n x).chains = k.chains := rfl
@[simp] theorem Core.setQueue_kvseg (k : Core) (n : Nat) (x : Queue) : (k.setQueue n x).kvseg = k.kvseg := rfl
@[simp] theorem Core.setQueue_tlb (k : Core) (n : Nat) (x : Queue) : (k.setQueue n x).tlb = k.tlb := rfl
@[simp] theorem Core.setQueue_istore (k : Core) (n : Nat) (x : Queue) : (k.setQueue n x).istore = k.istore := rfl
@[simp] theorem Core.setQueue_lease (k : Core) (n : Nat) (x : Queue) : (k.setQueue n x).lease = k.lease := rfl
@[simp] theorem Core.setQueue_saved (k : Core) (n : Nat) (x : Queue) : (k.setQueue n x).saved = k.saved := rfl
@[simp] theorem Core.setQueue_inflight (k : Core) (n : Nat) (x : Queue) : (k.setQueue n x).inflight = k.inflight := rfl
@[simp] theorem Core.setQueue_captured (k : Core) (n : Nat) (x : Queue) : (k.setQueue n x).captured = k.captured := rfl
@[simp] theorem Core.setQueue_checked (k : Core) (n : Nat) (x : Queue) : (k.setQueue n x).checked = k.checked := rfl
@[simp] theorem Core.setQueue_walk (k : Core) (n : Nat) (x : Queue) : (k.setQueue n x).walk = k.walk := rfl
@[simp] theorem Core.setQueue_reqs (k : Core) (n : Nat) (x : Queue) : (k.setQueue n x).reqs = k.reqs := rfl
@[simp] theorem Core.setQueue_near (k : Core) (n : Nat) (x : Queue) : (k.setQueue n x).near = k.near := rfl
@[simp] theorem Core.setQueue_cmds (k : Core) (n : Nat) (x : Queue) : (k.setQueue n x).cmds = k.cmds := rfl
@[simp] theorem Core.setQueue_services (k : Core) (n : Nat) (x : Queue) : (k.setQueue n x).services = k.services := rfl
@[simp] theorem Core.setQueue_arriving (k : Core) (n : Nat) (x : Queue) : (k.setQueue n x).arriving = k.arriving := rfl
@[simp] theorem Core.setQueue_epi (k : Core) (n : Nat) (x : Queue) : (k.setQueue n x).epi = k.epi := rfl
@[simp] theorem Core.setQueue_stopAt (k : Core) (n : Nat) (x : Queue) : (k.setQueue n x).stopAt = k.stopAt := rfl
@[simp] theorem Core.setQueue_gateOpen (k : Core) (n : Nat) (x : Queue) : (k.setQueue n x).gateOpen = k.gateOpen := rfl
@[simp] theorem Core.setQueue_haltTide (k : Core) (n : Nat) (x : Queue) : (k.setQueue n x).haltTide = k.haltTide := rfl
@[simp] theorem Core.setQueue_kbase (k : Core) (n : Nat) (x : Queue) : (k.setQueue n x).kbase = k.kbase := rfl
@[simp] theorem Core.setQueue_started (k : Core) (n : Nat) (x : Queue) : (k.setQueue n x).started = k.started := rfl
@[simp] theorem Core.setQueue_ackedAt (k : Core) (n : Nat) (x : Queue) : (k.setQueue n x).ackedAt = k.ackedAt := rfl
@[simp] theorem Core.setQueue_fencedAt (k : Core) (n : Nat) (x : Queue) : (k.setQueue n x).fencedAt = k.fencedAt := rfl
@[simp] theorem Core.setQueue_bankUse (k : Core) (n : Nat) (x : Queue) : (k.setQueue n x).bankUse = k.bankUse := rfl
@[simp] theorem Core.setQueue_wentQuiet (k : Core) (n : Nat) (x : Queue) : (k.setQueue n x).wentQuiet = k.wentQuiet := rfl
@[simp] theorem Core.setQueue_ahead (k : Core) (n : Nat) (x : Queue) : (k.setQueue n x).ahead = k.ahead := rfl
@[simp] theorem Core.setQueue_ord (k : Core) (n : Nat) (x : Queue) : (k.setQueue n x).ord = k.ord := rfl

/-! ### Core.setChain -/

@[simp] theorem Core.setChain_task (k : Core) (n : Nat) (x : Chain) : (k.setChain n x).task = k.task := rfl
@[simp] theorem Core.setChain_vid (k : Core) (n : Nat) (x : Chain) : (k.setChain n x).vid = k.vid := rfl
@[simp] theorem Core.setChain_gidx (k : Core) (n : Nat) (x : Chain) : (k.setChain n x).gidx = k.gidx := rfl
@[simp] theorem Core.setChain_part (k : Core) (n : Nat) (x : Chain) : (k.setChain n x).part = k.part := rfl
@[simp] theorem Core.setChain_mode (k : Core) (n : Nat) (x : Chain) : (k.setChain n x).mode = k.mode := rfl
@[simp] theorem Core.setChain_sreg (k : Core) (n : Nat) (x : Chain) : (k.setChain n x).sreg = k.sreg := rfl
@[simp] theorem Core.setChain_pend (k : Core) (n : Nat) (x : Chain) : (k.setChain n x).pend = k.pend := rfl
@[simp] theorem Core.setChain_tiles (k : Core) (n : Nat) (x : Chain) : (k.setChain n x).tiles = k.tiles := rfl
@[simp] theorem Core.setChain_acc (k : Core) (n : Nat) (x : Chain) : (k.setChain n x).acc = k.acc := rfl
@[simp] theorem Core.setChain_planes (k : Core) (n : Nat) (x : Chain) : (k.setChain n x).planes = k.planes := rfl
@[simp] theorem Core.setChain_act (k : Core) (n : Nat) (x : Chain) : (k.setChain n x).act = k.act := rfl
@[simp] theorem Core.setChain_occ (k : Core) (n : Nat) (x : Chain) : (k.setChain n x).occ = k.occ := rfl
@[simp] theorem Core.setChain_mbuf (k : Core) (n : Nat) (x : Chain) : (k.setChain n x).mbuf = k.mbuf := rfl
@[simp] theorem Core.setChain_scratch (k : Core) (n : Nat) (x : Chain) : (k.setChain n x).scratch = k.scratch := rfl
@[simp] theorem Core.setChain_rings (k : Core) (n : Nat) (x : Chain) : (k.setChain n x).rings = k.rings := rfl
@[simp] theorem Core.setChain_flags (k : Core) (n : Nat) (x : Chain) : (k.setChain n x).flags = k.flags := rfl
@[simp] theorem Core.setChain_vheap (k : Core) (n : Nat) (x : Chain) : (k.setChain n x).vheap = k.vheap := rfl
@[simp] theorem Core.setChain_blocks (k : Core) (n : Nat) (x : Chain) : (k.setChain n x).blocks = k.blocks := rfl
@[simp] theorem Core.setChain_reuse (k : Core) (n : Nat) (x : Chain) : (k.setChain n x).reuse = k.reuse := rfl
@[simp] theorem Core.setChain_tbase (k : Core) (n : Nat) (x : Chain) : (k.setChain n x).tbase = k.tbase := rfl
@[simp] theorem Core.setChain_slip (k : Core) (n : Nat) (x : Chain) : (k.setChain n x).slip = k.slip := rfl
@[simp] theorem Core.setChain_hmode (k : Core) (n : Nat) (x : Chain) : (k.setChain n x).hmode = k.hmode := rfl
@[simp] theorem Core.setChain_fcause (k : Core) (n : Nat) (x : Chain) : (k.setChain n x).fcause = k.fcause := rfl
@[simp] theorem Core.setChain_finfo (k : Core) (n : Nat) (x : Chain) : (k.setChain n x).finfo = k.finfo := rfl
@[simp] theorem Core.setChain_ffr (k : Core) (n : Nat) (x : Chain) : (k.setChain n x).ffr = k.ffr := rfl
@[simp] theorem Core.setChain_trapvec (k : Core) (n : Nat) (x : Chain) : (k.setChain n x).trapvec = k.trapvec := rfl
@[simp] theorem Core.setChain_tsave (k : Core) (n : Nat) (x : Chain) : (k.setChain n x).tsave = k.tsave := rfl
@[simp] theorem Core.setChain_parea (k : Core) (n : Nat) (x : Chain) : (k.setChain n x).parea = k.parea := rfl
@[simp] theorem Core.setChain_fflags (k : Core) (n : Nat) (x : Chain) : (k.setChain n x).fflags = k.fflags := rfl
@[simp] theorem Core.setChain_sr (k : Core) (n : Nat) (x : Chain) : (k.setChain n x).sr = k.sr := rfl
@[simp] theorem Core.setChain_rmodes (k : Core) (n : Nat) (x : Chain) : (k.setChain n x).rmodes = k.rmodes := rfl
@[simp] theorem Core.setChain_kvseg (k : Core) (n : Nat) (x : Chain) : (k.setChain n x).kvseg = k.kvseg := rfl
@[simp] theorem Core.setChain_tlb (k : Core) (n : Nat) (x : Chain) : (k.setChain n x).tlb = k.tlb := rfl
@[simp] theorem Core.setChain_istore (k : Core) (n : Nat) (x : Chain) : (k.setChain n x).istore = k.istore := rfl
@[simp] theorem Core.setChain_lease (k : Core) (n : Nat) (x : Chain) : (k.setChain n x).lease = k.lease := rfl
@[simp] theorem Core.setChain_stream (k : Core) (n : Nat) (x : Chain) : (k.setChain n x).stream = k.stream := rfl
@[simp] theorem Core.setChain_saved (k : Core) (n : Nat) (x : Chain) : (k.setChain n x).saved = k.saved := rfl
@[simp] theorem Core.setChain_inflight (k : Core) (n : Nat) (x : Chain) : (k.setChain n x).inflight = k.inflight := rfl
@[simp] theorem Core.setChain_captured (k : Core) (n : Nat) (x : Chain) : (k.setChain n x).captured = k.captured := rfl
@[simp] theorem Core.setChain_checked (k : Core) (n : Nat) (x : Chain) : (k.setChain n x).checked = k.checked := rfl
@[simp] theorem Core.setChain_walk (k : Core) (n : Nat) (x : Chain) : (k.setChain n x).walk = k.walk := rfl
@[simp] theorem Core.setChain_reqs (k : Core) (n : Nat) (x : Chain) : (k.setChain n x).reqs = k.reqs := rfl
@[simp] theorem Core.setChain_near (k : Core) (n : Nat) (x : Chain) : (k.setChain n x).near = k.near := rfl
@[simp] theorem Core.setChain_cmds (k : Core) (n : Nat) (x : Chain) : (k.setChain n x).cmds = k.cmds := rfl
@[simp] theorem Core.setChain_services (k : Core) (n : Nat) (x : Chain) : (k.setChain n x).services = k.services := rfl
@[simp] theorem Core.setChain_arriving (k : Core) (n : Nat) (x : Chain) : (k.setChain n x).arriving = k.arriving := rfl
@[simp] theorem Core.setChain_epi (k : Core) (n : Nat) (x : Chain) : (k.setChain n x).epi = k.epi := rfl
@[simp] theorem Core.setChain_stopAt (k : Core) (n : Nat) (x : Chain) : (k.setChain n x).stopAt = k.stopAt := rfl
@[simp] theorem Core.setChain_gateOpen (k : Core) (n : Nat) (x : Chain) : (k.setChain n x).gateOpen = k.gateOpen := rfl
@[simp] theorem Core.setChain_haltTide (k : Core) (n : Nat) (x : Chain) : (k.setChain n x).haltTide = k.haltTide := rfl
@[simp] theorem Core.setChain_kbase (k : Core) (n : Nat) (x : Chain) : (k.setChain n x).kbase = k.kbase := rfl
@[simp] theorem Core.setChain_started (k : Core) (n : Nat) (x : Chain) : (k.setChain n x).started = k.started := rfl
@[simp] theorem Core.setChain_ackedAt (k : Core) (n : Nat) (x : Chain) : (k.setChain n x).ackedAt = k.ackedAt := rfl
@[simp] theorem Core.setChain_fencedAt (k : Core) (n : Nat) (x : Chain) : (k.setChain n x).fencedAt = k.fencedAt := rfl
@[simp] theorem Core.setChain_bankUse (k : Core) (n : Nat) (x : Chain) : (k.setChain n x).bankUse = k.bankUse := rfl
@[simp] theorem Core.setChain_wentQuiet (k : Core) (n : Nat) (x : Chain) : (k.setChain n x).wentQuiet = k.wentQuiet := rfl
@[simp] theorem Core.setChain_ahead (k : Core) (n : Nat) (x : Chain) : (k.setChain n x).ahead = k.ahead := rfl
@[simp] theorem Core.setChain_ord (k : Core) (n : Nat) (x : Chain) : (k.setChain n x).ord = k.ord := rfl

/-! ### Core.storeScratch -/

@[simp] theorem Core.storeScratch_task (k : Core) (a : Nat) (bs : List Byte) : (k.storeScratch a bs).task = k.task := rfl
@[simp] theorem Core.storeScratch_vid (k : Core) (a : Nat) (bs : List Byte) : (k.storeScratch a bs).vid = k.vid := rfl
@[simp] theorem Core.storeScratch_gidx (k : Core) (a : Nat) (bs : List Byte) : (k.storeScratch a bs).gidx = k.gidx := rfl
@[simp] theorem Core.storeScratch_part (k : Core) (a : Nat) (bs : List Byte) : (k.storeScratch a bs).part = k.part := rfl
@[simp] theorem Core.storeScratch_mode (k : Core) (a : Nat) (bs : List Byte) : (k.storeScratch a bs).mode = k.mode := rfl
@[simp] theorem Core.storeScratch_sreg (k : Core) (a : Nat) (bs : List Byte) : (k.storeScratch a bs).sreg = k.sreg := rfl
@[simp] theorem Core.storeScratch_pend (k : Core) (a : Nat) (bs : List Byte) : (k.storeScratch a bs).pend = k.pend := rfl
@[simp] theorem Core.storeScratch_tiles (k : Core) (a : Nat) (bs : List Byte) : (k.storeScratch a bs).tiles = k.tiles := rfl
@[simp] theorem Core.storeScratch_acc (k : Core) (a : Nat) (bs : List Byte) : (k.storeScratch a bs).acc = k.acc := rfl
@[simp] theorem Core.storeScratch_planes (k : Core) (a : Nat) (bs : List Byte) : (k.storeScratch a bs).planes = k.planes := rfl
@[simp] theorem Core.storeScratch_act (k : Core) (a : Nat) (bs : List Byte) : (k.storeScratch a bs).act = k.act := rfl
@[simp] theorem Core.storeScratch_occ (k : Core) (a : Nat) (bs : List Byte) : (k.storeScratch a bs).occ = k.occ := rfl
@[simp] theorem Core.storeScratch_mbuf (k : Core) (a : Nat) (bs : List Byte) : (k.storeScratch a bs).mbuf = k.mbuf := rfl
@[simp] theorem Core.storeScratch_rings (k : Core) (a : Nat) (bs : List Byte) : (k.storeScratch a bs).rings = k.rings := rfl
@[simp] theorem Core.storeScratch_flags (k : Core) (a : Nat) (bs : List Byte) : (k.storeScratch a bs).flags = k.flags := rfl
@[simp] theorem Core.storeScratch_vheap (k : Core) (a : Nat) (bs : List Byte) : (k.storeScratch a bs).vheap = k.vheap := rfl
@[simp] theorem Core.storeScratch_blocks (k : Core) (a : Nat) (bs : List Byte) : (k.storeScratch a bs).blocks = k.blocks := rfl
@[simp] theorem Core.storeScratch_reuse (k : Core) (a : Nat) (bs : List Byte) : (k.storeScratch a bs).reuse = k.reuse := rfl
@[simp] theorem Core.storeScratch_tbase (k : Core) (a : Nat) (bs : List Byte) : (k.storeScratch a bs).tbase = k.tbase := rfl
@[simp] theorem Core.storeScratch_slip (k : Core) (a : Nat) (bs : List Byte) : (k.storeScratch a bs).slip = k.slip := rfl
@[simp] theorem Core.storeScratch_hmode (k : Core) (a : Nat) (bs : List Byte) : (k.storeScratch a bs).hmode = k.hmode := rfl
@[simp] theorem Core.storeScratch_fcause (k : Core) (a : Nat) (bs : List Byte) : (k.storeScratch a bs).fcause = k.fcause := rfl
@[simp] theorem Core.storeScratch_finfo (k : Core) (a : Nat) (bs : List Byte) : (k.storeScratch a bs).finfo = k.finfo := rfl
@[simp] theorem Core.storeScratch_ffr (k : Core) (a : Nat) (bs : List Byte) : (k.storeScratch a bs).ffr = k.ffr := rfl
@[simp] theorem Core.storeScratch_trapvec (k : Core) (a : Nat) (bs : List Byte) : (k.storeScratch a bs).trapvec = k.trapvec := rfl
@[simp] theorem Core.storeScratch_tsave (k : Core) (a : Nat) (bs : List Byte) : (k.storeScratch a bs).tsave = k.tsave := rfl
@[simp] theorem Core.storeScratch_parea (k : Core) (a : Nat) (bs : List Byte) : (k.storeScratch a bs).parea = k.parea := rfl
@[simp] theorem Core.storeScratch_fflags (k : Core) (a : Nat) (bs : List Byte) : (k.storeScratch a bs).fflags = k.fflags := rfl
@[simp] theorem Core.storeScratch_sr (k : Core) (a : Nat) (bs : List Byte) : (k.storeScratch a bs).sr = k.sr := rfl
@[simp] theorem Core.storeScratch_rmodes (k : Core) (a : Nat) (bs : List Byte) : (k.storeScratch a bs).rmodes = k.rmodes := rfl
@[simp] theorem Core.storeScratch_chains (k : Core) (a : Nat) (bs : List Byte) : (k.storeScratch a bs).chains = k.chains := rfl
@[simp] theorem Core.storeScratch_kvseg (k : Core) (a : Nat) (bs : List Byte) : (k.storeScratch a bs).kvseg = k.kvseg := rfl
@[simp] theorem Core.storeScratch_tlb (k : Core) (a : Nat) (bs : List Byte) : (k.storeScratch a bs).tlb = k.tlb := rfl
@[simp] theorem Core.storeScratch_istore (k : Core) (a : Nat) (bs : List Byte) : (k.storeScratch a bs).istore = k.istore := rfl
@[simp] theorem Core.storeScratch_lease (k : Core) (a : Nat) (bs : List Byte) : (k.storeScratch a bs).lease = k.lease := rfl
@[simp] theorem Core.storeScratch_stream (k : Core) (a : Nat) (bs : List Byte) : (k.storeScratch a bs).stream = k.stream := rfl
@[simp] theorem Core.storeScratch_saved (k : Core) (a : Nat) (bs : List Byte) : (k.storeScratch a bs).saved = k.saved := rfl
@[simp] theorem Core.storeScratch_inflight (k : Core) (a : Nat) (bs : List Byte) : (k.storeScratch a bs).inflight = k.inflight := rfl
@[simp] theorem Core.storeScratch_captured (k : Core) (a : Nat) (bs : List Byte) : (k.storeScratch a bs).captured = k.captured := rfl
@[simp] theorem Core.storeScratch_checked (k : Core) (a : Nat) (bs : List Byte) : (k.storeScratch a bs).checked = k.checked := rfl
@[simp] theorem Core.storeScratch_walk (k : Core) (a : Nat) (bs : List Byte) : (k.storeScratch a bs).walk = k.walk := rfl
@[simp] theorem Core.storeScratch_reqs (k : Core) (a : Nat) (bs : List Byte) : (k.storeScratch a bs).reqs = k.reqs := rfl
@[simp] theorem Core.storeScratch_near (k : Core) (a : Nat) (bs : List Byte) : (k.storeScratch a bs).near = k.near := rfl
@[simp] theorem Core.storeScratch_cmds (k : Core) (a : Nat) (bs : List Byte) : (k.storeScratch a bs).cmds = k.cmds := rfl
@[simp] theorem Core.storeScratch_services (k : Core) (a : Nat) (bs : List Byte) : (k.storeScratch a bs).services = k.services := rfl
@[simp] theorem Core.storeScratch_arriving (k : Core) (a : Nat) (bs : List Byte) : (k.storeScratch a bs).arriving = k.arriving := rfl
@[simp] theorem Core.storeScratch_epi (k : Core) (a : Nat) (bs : List Byte) : (k.storeScratch a bs).epi = k.epi := rfl
@[simp] theorem Core.storeScratch_stopAt (k : Core) (a : Nat) (bs : List Byte) : (k.storeScratch a bs).stopAt = k.stopAt := rfl
@[simp] theorem Core.storeScratch_gateOpen (k : Core) (a : Nat) (bs : List Byte) : (k.storeScratch a bs).gateOpen = k.gateOpen := rfl
@[simp] theorem Core.storeScratch_haltTide (k : Core) (a : Nat) (bs : List Byte) : (k.storeScratch a bs).haltTide = k.haltTide := rfl
@[simp] theorem Core.storeScratch_kbase (k : Core) (a : Nat) (bs : List Byte) : (k.storeScratch a bs).kbase = k.kbase := rfl
@[simp] theorem Core.storeScratch_started (k : Core) (a : Nat) (bs : List Byte) : (k.storeScratch a bs).started = k.started := rfl
@[simp] theorem Core.storeScratch_ackedAt (k : Core) (a : Nat) (bs : List Byte) : (k.storeScratch a bs).ackedAt = k.ackedAt := rfl
@[simp] theorem Core.storeScratch_fencedAt (k : Core) (a : Nat) (bs : List Byte) : (k.storeScratch a bs).fencedAt = k.fencedAt := rfl
@[simp] theorem Core.storeScratch_bankUse (k : Core) (a : Nat) (bs : List Byte) : (k.storeScratch a bs).bankUse = k.bankUse := rfl
@[simp] theorem Core.storeScratch_wentQuiet (k : Core) (a : Nat) (bs : List Byte) : (k.storeScratch a bs).wentQuiet = k.wentQuiet := rfl
@[simp] theorem Core.storeScratch_ahead (k : Core) (a : Nat) (bs : List Byte) : (k.storeScratch a bs).ahead = k.ahead := rfl
@[simp] theorem Core.storeScratch_ord (k : Core) (a : Nat) (bs : List Byte) : (k.storeScratch a bs).ord = k.ord := rfl

/-! ### Core.raiseFlags -/

@[simp] theorem Core.raiseFlags_task (k : Core) (e : Nat) (f : Flags) : (k.raiseFlags e f).task = k.task := rfl
@[simp] theorem Core.raiseFlags_vid (k : Core) (e : Nat) (f : Flags) : (k.raiseFlags e f).vid = k.vid := rfl
@[simp] theorem Core.raiseFlags_gidx (k : Core) (e : Nat) (f : Flags) : (k.raiseFlags e f).gidx = k.gidx := rfl
@[simp] theorem Core.raiseFlags_part (k : Core) (e : Nat) (f : Flags) : (k.raiseFlags e f).part = k.part := rfl
@[simp] theorem Core.raiseFlags_mode (k : Core) (e : Nat) (f : Flags) : (k.raiseFlags e f).mode = k.mode := rfl
@[simp] theorem Core.raiseFlags_sreg (k : Core) (e : Nat) (f : Flags) : (k.raiseFlags e f).sreg = k.sreg := rfl
@[simp] theorem Core.raiseFlags_pend (k : Core) (e : Nat) (f : Flags) : (k.raiseFlags e f).pend = k.pend := rfl
@[simp] theorem Core.raiseFlags_tiles (k : Core) (e : Nat) (f : Flags) : (k.raiseFlags e f).tiles = k.tiles := rfl
@[simp] theorem Core.raiseFlags_acc (k : Core) (e : Nat) (f : Flags) : (k.raiseFlags e f).acc = k.acc := rfl
@[simp] theorem Core.raiseFlags_planes (k : Core) (e : Nat) (f : Flags) : (k.raiseFlags e f).planes = k.planes := rfl
@[simp] theorem Core.raiseFlags_act (k : Core) (e : Nat) (f : Flags) : (k.raiseFlags e f).act = k.act := rfl
@[simp] theorem Core.raiseFlags_occ (k : Core) (e : Nat) (f : Flags) : (k.raiseFlags e f).occ = k.occ := rfl
@[simp] theorem Core.raiseFlags_mbuf (k : Core) (e : Nat) (f : Flags) : (k.raiseFlags e f).mbuf = k.mbuf := rfl
@[simp] theorem Core.raiseFlags_scratch (k : Core) (e : Nat) (f : Flags) : (k.raiseFlags e f).scratch = k.scratch := rfl
@[simp] theorem Core.raiseFlags_rings (k : Core) (e : Nat) (f : Flags) : (k.raiseFlags e f).rings = k.rings := rfl
@[simp] theorem Core.raiseFlags_flags (k : Core) (e : Nat) (f : Flags) : (k.raiseFlags e f).flags = k.flags := rfl
@[simp] theorem Core.raiseFlags_vheap (k : Core) (e : Nat) (f : Flags) : (k.raiseFlags e f).vheap = k.vheap := rfl
@[simp] theorem Core.raiseFlags_blocks (k : Core) (e : Nat) (f : Flags) : (k.raiseFlags e f).blocks = k.blocks := rfl
@[simp] theorem Core.raiseFlags_reuse (k : Core) (e : Nat) (f : Flags) : (k.raiseFlags e f).reuse = k.reuse := rfl
@[simp] theorem Core.raiseFlags_tbase (k : Core) (e : Nat) (f : Flags) : (k.raiseFlags e f).tbase = k.tbase := rfl
@[simp] theorem Core.raiseFlags_slip (k : Core) (e : Nat) (f : Flags) : (k.raiseFlags e f).slip = k.slip := rfl
@[simp] theorem Core.raiseFlags_hmode (k : Core) (e : Nat) (f : Flags) : (k.raiseFlags e f).hmode = k.hmode := rfl
@[simp] theorem Core.raiseFlags_fcause (k : Core) (e : Nat) (f : Flags) : (k.raiseFlags e f).fcause = k.fcause := rfl
@[simp] theorem Core.raiseFlags_finfo (k : Core) (e : Nat) (f : Flags) : (k.raiseFlags e f).finfo = k.finfo := rfl
@[simp] theorem Core.raiseFlags_ffr (k : Core) (e : Nat) (f : Flags) : (k.raiseFlags e f).ffr = k.ffr := rfl
@[simp] theorem Core.raiseFlags_trapvec (k : Core) (e : Nat) (f : Flags) : (k.raiseFlags e f).trapvec = k.trapvec := rfl
@[simp] theorem Core.raiseFlags_tsave (k : Core) (e : Nat) (f : Flags) : (k.raiseFlags e f).tsave = k.tsave := rfl
@[simp] theorem Core.raiseFlags_parea (k : Core) (e : Nat) (f : Flags) : (k.raiseFlags e f).parea = k.parea := rfl
@[simp] theorem Core.raiseFlags_sr (k : Core) (e : Nat) (f : Flags) : (k.raiseFlags e f).sr = k.sr := rfl
@[simp] theorem Core.raiseFlags_rmodes (k : Core) (e : Nat) (f : Flags) : (k.raiseFlags e f).rmodes = k.rmodes := rfl
@[simp] theorem Core.raiseFlags_chains (k : Core) (e : Nat) (f : Flags) : (k.raiseFlags e f).chains = k.chains := rfl
@[simp] theorem Core.raiseFlags_kvseg (k : Core) (e : Nat) (f : Flags) : (k.raiseFlags e f).kvseg = k.kvseg := rfl
@[simp] theorem Core.raiseFlags_tlb (k : Core) (e : Nat) (f : Flags) : (k.raiseFlags e f).tlb = k.tlb := rfl
@[simp] theorem Core.raiseFlags_istore (k : Core) (e : Nat) (f : Flags) : (k.raiseFlags e f).istore = k.istore := rfl
@[simp] theorem Core.raiseFlags_lease (k : Core) (e : Nat) (f : Flags) : (k.raiseFlags e f).lease = k.lease := rfl
@[simp] theorem Core.raiseFlags_stream (k : Core) (e : Nat) (f : Flags) : (k.raiseFlags e f).stream = k.stream := rfl
@[simp] theorem Core.raiseFlags_saved (k : Core) (e : Nat) (f : Flags) : (k.raiseFlags e f).saved = k.saved := rfl
@[simp] theorem Core.raiseFlags_inflight (k : Core) (e : Nat) (f : Flags) : (k.raiseFlags e f).inflight = k.inflight := rfl
@[simp] theorem Core.raiseFlags_captured (k : Core) (e : Nat) (f : Flags) : (k.raiseFlags e f).captured = k.captured := rfl
@[simp] theorem Core.raiseFlags_checked (k : Core) (e : Nat) (f : Flags) : (k.raiseFlags e f).checked = k.checked := rfl
@[simp] theorem Core.raiseFlags_walk (k : Core) (e : Nat) (f : Flags) : (k.raiseFlags e f).walk = k.walk := rfl
@[simp] theorem Core.raiseFlags_reqs (k : Core) (e : Nat) (f : Flags) : (k.raiseFlags e f).reqs = k.reqs := rfl
@[simp] theorem Core.raiseFlags_near (k : Core) (e : Nat) (f : Flags) : (k.raiseFlags e f).near = k.near := rfl
@[simp] theorem Core.raiseFlags_cmds (k : Core) (e : Nat) (f : Flags) : (k.raiseFlags e f).cmds = k.cmds := rfl
@[simp] theorem Core.raiseFlags_services (k : Core) (e : Nat) (f : Flags) : (k.raiseFlags e f).services = k.services := rfl
@[simp] theorem Core.raiseFlags_arriving (k : Core) (e : Nat) (f : Flags) : (k.raiseFlags e f).arriving = k.arriving := rfl
@[simp] theorem Core.raiseFlags_epi (k : Core) (e : Nat) (f : Flags) : (k.raiseFlags e f).epi = k.epi := rfl
@[simp] theorem Core.raiseFlags_stopAt (k : Core) (e : Nat) (f : Flags) : (k.raiseFlags e f).stopAt = k.stopAt := rfl
@[simp] theorem Core.raiseFlags_gateOpen (k : Core) (e : Nat) (f : Flags) : (k.raiseFlags e f).gateOpen = k.gateOpen := rfl
@[simp] theorem Core.raiseFlags_haltTide (k : Core) (e : Nat) (f : Flags) : (k.raiseFlags e f).haltTide = k.haltTide := rfl
@[simp] theorem Core.raiseFlags_kbase (k : Core) (e : Nat) (f : Flags) : (k.raiseFlags e f).kbase = k.kbase := rfl
@[simp] theorem Core.raiseFlags_started (k : Core) (e : Nat) (f : Flags) : (k.raiseFlags e f).started = k.started := rfl
@[simp] theorem Core.raiseFlags_ackedAt (k : Core) (e : Nat) (f : Flags) : (k.raiseFlags e f).ackedAt = k.ackedAt := rfl
@[simp] theorem Core.raiseFlags_fencedAt (k : Core) (e : Nat) (f : Flags) : (k.raiseFlags e f).fencedAt = k.fencedAt := rfl
@[simp] theorem Core.raiseFlags_bankUse (k : Core) (e : Nat) (f : Flags) : (k.raiseFlags e f).bankUse = k.bankUse := rfl
@[simp] theorem Core.raiseFlags_wentQuiet (k : Core) (e : Nat) (f : Flags) : (k.raiseFlags e f).wentQuiet = k.wentQuiet := rfl
@[simp] theorem Core.raiseFlags_ahead (k : Core) (e : Nat) (f : Flags) : (k.raiseFlags e f).ahead = k.ahead := rfl
@[simp] theorem Core.raiseFlags_ord (k : Core) (e : Nat) (f : Flags) : (k.raiseFlags e f).ord = k.ord := rfl

/-! ### Core.setAccRow -/

@[simp] theorem Core.setAccRow_task (k : Core) (a r : Nat) (xs : List Nat) : (k.setAccRow a r xs).task = k.task := rfl
@[simp] theorem Core.setAccRow_vid (k : Core) (a r : Nat) (xs : List Nat) : (k.setAccRow a r xs).vid = k.vid := rfl
@[simp] theorem Core.setAccRow_gidx (k : Core) (a r : Nat) (xs : List Nat) : (k.setAccRow a r xs).gidx = k.gidx := rfl
@[simp] theorem Core.setAccRow_part (k : Core) (a r : Nat) (xs : List Nat) : (k.setAccRow a r xs).part = k.part := rfl
@[simp] theorem Core.setAccRow_mode (k : Core) (a r : Nat) (xs : List Nat) : (k.setAccRow a r xs).mode = k.mode := rfl
@[simp] theorem Core.setAccRow_sreg (k : Core) (a r : Nat) (xs : List Nat) : (k.setAccRow a r xs).sreg = k.sreg := rfl
@[simp] theorem Core.setAccRow_pend (k : Core) (a r : Nat) (xs : List Nat) : (k.setAccRow a r xs).pend = k.pend := rfl
@[simp] theorem Core.setAccRow_tiles (k : Core) (a r : Nat) (xs : List Nat) : (k.setAccRow a r xs).tiles = k.tiles := rfl
@[simp] theorem Core.setAccRow_planes (k : Core) (a r : Nat) (xs : List Nat) : (k.setAccRow a r xs).planes = k.planes := rfl
@[simp] theorem Core.setAccRow_act (k : Core) (a r : Nat) (xs : List Nat) : (k.setAccRow a r xs).act = k.act := rfl
@[simp] theorem Core.setAccRow_occ (k : Core) (a r : Nat) (xs : List Nat) : (k.setAccRow a r xs).occ = k.occ := rfl
@[simp] theorem Core.setAccRow_mbuf (k : Core) (a r : Nat) (xs : List Nat) : (k.setAccRow a r xs).mbuf = k.mbuf := rfl
@[simp] theorem Core.setAccRow_scratch (k : Core) (a r : Nat) (xs : List Nat) : (k.setAccRow a r xs).scratch = k.scratch := rfl
@[simp] theorem Core.setAccRow_rings (k : Core) (a r : Nat) (xs : List Nat) : (k.setAccRow a r xs).rings = k.rings := rfl
@[simp] theorem Core.setAccRow_flags (k : Core) (a r : Nat) (xs : List Nat) : (k.setAccRow a r xs).flags = k.flags := rfl
@[simp] theorem Core.setAccRow_vheap (k : Core) (a r : Nat) (xs : List Nat) : (k.setAccRow a r xs).vheap = k.vheap := rfl
@[simp] theorem Core.setAccRow_blocks (k : Core) (a r : Nat) (xs : List Nat) : (k.setAccRow a r xs).blocks = k.blocks := rfl
@[simp] theorem Core.setAccRow_reuse (k : Core) (a r : Nat) (xs : List Nat) : (k.setAccRow a r xs).reuse = k.reuse := rfl
@[simp] theorem Core.setAccRow_tbase (k : Core) (a r : Nat) (xs : List Nat) : (k.setAccRow a r xs).tbase = k.tbase := rfl
@[simp] theorem Core.setAccRow_slip (k : Core) (a r : Nat) (xs : List Nat) : (k.setAccRow a r xs).slip = k.slip := rfl
@[simp] theorem Core.setAccRow_hmode (k : Core) (a r : Nat) (xs : List Nat) : (k.setAccRow a r xs).hmode = k.hmode := rfl
@[simp] theorem Core.setAccRow_fcause (k : Core) (a r : Nat) (xs : List Nat) : (k.setAccRow a r xs).fcause = k.fcause := rfl
@[simp] theorem Core.setAccRow_finfo (k : Core) (a r : Nat) (xs : List Nat) : (k.setAccRow a r xs).finfo = k.finfo := rfl
@[simp] theorem Core.setAccRow_ffr (k : Core) (a r : Nat) (xs : List Nat) : (k.setAccRow a r xs).ffr = k.ffr := rfl
@[simp] theorem Core.setAccRow_trapvec (k : Core) (a r : Nat) (xs : List Nat) : (k.setAccRow a r xs).trapvec = k.trapvec := rfl
@[simp] theorem Core.setAccRow_tsave (k : Core) (a r : Nat) (xs : List Nat) : (k.setAccRow a r xs).tsave = k.tsave := rfl
@[simp] theorem Core.setAccRow_parea (k : Core) (a r : Nat) (xs : List Nat) : (k.setAccRow a r xs).parea = k.parea := rfl
@[simp] theorem Core.setAccRow_fflags (k : Core) (a r : Nat) (xs : List Nat) : (k.setAccRow a r xs).fflags = k.fflags := rfl
@[simp] theorem Core.setAccRow_sr (k : Core) (a r : Nat) (xs : List Nat) : (k.setAccRow a r xs).sr = k.sr := rfl
@[simp] theorem Core.setAccRow_rmodes (k : Core) (a r : Nat) (xs : List Nat) : (k.setAccRow a r xs).rmodes = k.rmodes := rfl
@[simp] theorem Core.setAccRow_chains (k : Core) (a r : Nat) (xs : List Nat) : (k.setAccRow a r xs).chains = k.chains := rfl
@[simp] theorem Core.setAccRow_kvseg (k : Core) (a r : Nat) (xs : List Nat) : (k.setAccRow a r xs).kvseg = k.kvseg := rfl
@[simp] theorem Core.setAccRow_tlb (k : Core) (a r : Nat) (xs : List Nat) : (k.setAccRow a r xs).tlb = k.tlb := rfl
@[simp] theorem Core.setAccRow_istore (k : Core) (a r : Nat) (xs : List Nat) : (k.setAccRow a r xs).istore = k.istore := rfl
@[simp] theorem Core.setAccRow_lease (k : Core) (a r : Nat) (xs : List Nat) : (k.setAccRow a r xs).lease = k.lease := rfl
@[simp] theorem Core.setAccRow_stream (k : Core) (a r : Nat) (xs : List Nat) : (k.setAccRow a r xs).stream = k.stream := rfl
@[simp] theorem Core.setAccRow_saved (k : Core) (a r : Nat) (xs : List Nat) : (k.setAccRow a r xs).saved = k.saved := rfl
@[simp] theorem Core.setAccRow_inflight (k : Core) (a r : Nat) (xs : List Nat) : (k.setAccRow a r xs).inflight = k.inflight := rfl
@[simp] theorem Core.setAccRow_captured (k : Core) (a r : Nat) (xs : List Nat) : (k.setAccRow a r xs).captured = k.captured := rfl
@[simp] theorem Core.setAccRow_checked (k : Core) (a r : Nat) (xs : List Nat) : (k.setAccRow a r xs).checked = k.checked := rfl
@[simp] theorem Core.setAccRow_walk (k : Core) (a r : Nat) (xs : List Nat) : (k.setAccRow a r xs).walk = k.walk := rfl
@[simp] theorem Core.setAccRow_reqs (k : Core) (a r : Nat) (xs : List Nat) : (k.setAccRow a r xs).reqs = k.reqs := rfl
@[simp] theorem Core.setAccRow_near (k : Core) (a r : Nat) (xs : List Nat) : (k.setAccRow a r xs).near = k.near := rfl
@[simp] theorem Core.setAccRow_cmds (k : Core) (a r : Nat) (xs : List Nat) : (k.setAccRow a r xs).cmds = k.cmds := rfl
@[simp] theorem Core.setAccRow_services (k : Core) (a r : Nat) (xs : List Nat) : (k.setAccRow a r xs).services = k.services := rfl
@[simp] theorem Core.setAccRow_arriving (k : Core) (a r : Nat) (xs : List Nat) : (k.setAccRow a r xs).arriving = k.arriving := rfl
@[simp] theorem Core.setAccRow_epi (k : Core) (a r : Nat) (xs : List Nat) : (k.setAccRow a r xs).epi = k.epi := rfl
@[simp] theorem Core.setAccRow_stopAt (k : Core) (a r : Nat) (xs : List Nat) : (k.setAccRow a r xs).stopAt = k.stopAt := rfl
@[simp] theorem Core.setAccRow_gateOpen (k : Core) (a r : Nat) (xs : List Nat) : (k.setAccRow a r xs).gateOpen = k.gateOpen := rfl
@[simp] theorem Core.setAccRow_haltTide (k : Core) (a r : Nat) (xs : List Nat) : (k.setAccRow a r xs).haltTide = k.haltTide := rfl
@[simp] theorem Core.setAccRow_kbase (k : Core) (a r : Nat) (xs : List Nat) : (k.setAccRow a r xs).kbase = k.kbase := rfl
@[simp] theorem Core.setAccRow_started (k : Core) (a r : Nat) (xs : List Nat) : (k.setAccRow a r xs).started = k.started := rfl
@[simp] theorem Core.setAccRow_ackedAt (k : Core) (a r : Nat) (xs : List Nat) : (k.setAccRow a r xs).ackedAt = k.ackedAt := rfl
@[simp] theorem Core.setAccRow_fencedAt (k : Core) (a r : Nat) (xs : List Nat) : (k.setAccRow a r xs).fencedAt = k.fencedAt := rfl
@[simp] theorem Core.setAccRow_bankUse (k : Core) (a r : Nat) (xs : List Nat) : (k.setAccRow a r xs).bankUse = k.bankUse := rfl
@[simp] theorem Core.setAccRow_wentQuiet (k : Core) (a r : Nat) (xs : List Nat) : (k.setAccRow a r xs).wentQuiet = k.wentQuiet := rfl
@[simp] theorem Core.setAccRow_ahead (k : Core) (a r : Nat) (xs : List Nat) : (k.setAccRow a r xs).ahead = k.ahead := rfl
@[simp] theorem Core.setAccRow_ord (k : Core) (a r : Nat) (xs : List Nat) : (k.setAccRow a r xs).ord = k.ord := rfl

/-! ### Core.setReg -/

@[simp] theorem Core.setReg_task (k : Core) (r : Nat) (v : W64) : (k.setReg r v).task = k.task := by
  unfold Core.setReg; split <;> rfl
@[simp] theorem Core.setReg_vid (k : Core) (r : Nat) (v : W64) : (k.setReg r v).vid = k.vid := by
  unfold Core.setReg; split <;> rfl
@[simp] theorem Core.setReg_gidx (k : Core) (r : Nat) (v : W64) : (k.setReg r v).gidx = k.gidx := by
  unfold Core.setReg; split <;> rfl
@[simp] theorem Core.setReg_part (k : Core) (r : Nat) (v : W64) : (k.setReg r v).part = k.part := by
  unfold Core.setReg; split <;> rfl
@[simp] theorem Core.setReg_mode (k : Core) (r : Nat) (v : W64) : (k.setReg r v).mode = k.mode := by
  unfold Core.setReg; split <;> rfl
@[simp] theorem Core.setReg_pend (k : Core) (r : Nat) (v : W64) : (k.setReg r v).pend = k.pend := by
  unfold Core.setReg; split <;> rfl
@[simp] theorem Core.setReg_tiles (k : Core) (r : Nat) (v : W64) : (k.setReg r v).tiles = k.tiles := by
  unfold Core.setReg; split <;> rfl
@[simp] theorem Core.setReg_acc (k : Core) (r : Nat) (v : W64) : (k.setReg r v).acc = k.acc := by
  unfold Core.setReg; split <;> rfl
@[simp] theorem Core.setReg_planes (k : Core) (r : Nat) (v : W64) : (k.setReg r v).planes = k.planes := by
  unfold Core.setReg; split <;> rfl
@[simp] theorem Core.setReg_act (k : Core) (r : Nat) (v : W64) : (k.setReg r v).act = k.act := by
  unfold Core.setReg; split <;> rfl
@[simp] theorem Core.setReg_occ (k : Core) (r : Nat) (v : W64) : (k.setReg r v).occ = k.occ := by
  unfold Core.setReg; split <;> rfl
@[simp] theorem Core.setReg_mbuf (k : Core) (r : Nat) (v : W64) : (k.setReg r v).mbuf = k.mbuf := by
  unfold Core.setReg; split <;> rfl
@[simp] theorem Core.setReg_scratch (k : Core) (r : Nat) (v : W64) : (k.setReg r v).scratch = k.scratch := by
  unfold Core.setReg; split <;> rfl
@[simp] theorem Core.setReg_rings (k : Core) (r : Nat) (v : W64) : (k.setReg r v).rings = k.rings := by
  unfold Core.setReg; split <;> rfl
@[simp] theorem Core.setReg_flags (k : Core) (r : Nat) (v : W64) : (k.setReg r v).flags = k.flags := by
  unfold Core.setReg; split <;> rfl
@[simp] theorem Core.setReg_vheap (k : Core) (r : Nat) (v : W64) : (k.setReg r v).vheap = k.vheap := by
  unfold Core.setReg; split <;> rfl
@[simp] theorem Core.setReg_blocks (k : Core) (r : Nat) (v : W64) : (k.setReg r v).blocks = k.blocks := by
  unfold Core.setReg; split <;> rfl
@[simp] theorem Core.setReg_reuse (k : Core) (r : Nat) (v : W64) : (k.setReg r v).reuse = k.reuse := by
  unfold Core.setReg; split <;> rfl
@[simp] theorem Core.setReg_tbase (k : Core) (r : Nat) (v : W64) : (k.setReg r v).tbase = k.tbase := by
  unfold Core.setReg; split <;> rfl
@[simp] theorem Core.setReg_slip (k : Core) (r : Nat) (v : W64) : (k.setReg r v).slip = k.slip := by
  unfold Core.setReg; split <;> rfl
@[simp] theorem Core.setReg_hmode (k : Core) (r : Nat) (v : W64) : (k.setReg r v).hmode = k.hmode := by
  unfold Core.setReg; split <;> rfl
@[simp] theorem Core.setReg_fcause (k : Core) (r : Nat) (v : W64) : (k.setReg r v).fcause = k.fcause := by
  unfold Core.setReg; split <;> rfl
@[simp] theorem Core.setReg_finfo (k : Core) (r : Nat) (v : W64) : (k.setReg r v).finfo = k.finfo := by
  unfold Core.setReg; split <;> rfl
@[simp] theorem Core.setReg_ffr (k : Core) (r : Nat) (v : W64) : (k.setReg r v).ffr = k.ffr := by
  unfold Core.setReg; split <;> rfl
@[simp] theorem Core.setReg_trapvec (k : Core) (r : Nat) (v : W64) : (k.setReg r v).trapvec = k.trapvec := by
  unfold Core.setReg; split <;> rfl
@[simp] theorem Core.setReg_tsave (k : Core) (r : Nat) (v : W64) : (k.setReg r v).tsave = k.tsave := by
  unfold Core.setReg; split <;> rfl
@[simp] theorem Core.setReg_parea (k : Core) (r : Nat) (v : W64) : (k.setReg r v).parea = k.parea := by
  unfold Core.setReg; split <;> rfl
@[simp] theorem Core.setReg_fflags (k : Core) (r : Nat) (v : W64) : (k.setReg r v).fflags = k.fflags := by
  unfold Core.setReg; split <;> rfl
@[simp] theorem Core.setReg_sr (k : Core) (r : Nat) (v : W64) : (k.setReg r v).sr = k.sr := by
  unfold Core.setReg; split <;> rfl
@[simp] theorem Core.setReg_rmodes (k : Core) (r : Nat) (v : W64) : (k.setReg r v).rmodes = k.rmodes := by
  unfold Core.setReg; split <;> rfl
@[simp] theorem Core.setReg_chains (k : Core) (r : Nat) (v : W64) : (k.setReg r v).chains = k.chains := by
  unfold Core.setReg; split <;> rfl
@[simp] theorem Core.setReg_kvseg (k : Core) (r : Nat) (v : W64) : (k.setReg r v).kvseg = k.kvseg := by
  unfold Core.setReg; split <;> rfl
@[simp] theorem Core.setReg_tlb (k : Core) (r : Nat) (v : W64) : (k.setReg r v).tlb = k.tlb := by
  unfold Core.setReg; split <;> rfl
@[simp] theorem Core.setReg_istore (k : Core) (r : Nat) (v : W64) : (k.setReg r v).istore = k.istore := by
  unfold Core.setReg; split <;> rfl
@[simp] theorem Core.setReg_lease (k : Core) (r : Nat) (v : W64) : (k.setReg r v).lease = k.lease := by
  unfold Core.setReg; split <;> rfl
@[simp] theorem Core.setReg_stream (k : Core) (r : Nat) (v : W64) : (k.setReg r v).stream = k.stream := by
  unfold Core.setReg; split <;> rfl
@[simp] theorem Core.setReg_saved (k : Core) (r : Nat) (v : W64) : (k.setReg r v).saved = k.saved := by
  unfold Core.setReg; split <;> rfl
@[simp] theorem Core.setReg_inflight (k : Core) (r : Nat) (v : W64) : (k.setReg r v).inflight = k.inflight := by
  unfold Core.setReg; split <;> rfl
@[simp] theorem Core.setReg_captured (k : Core) (r : Nat) (v : W64) : (k.setReg r v).captured = k.captured := by
  unfold Core.setReg; split <;> rfl
@[simp] theorem Core.setReg_checked (k : Core) (r : Nat) (v : W64) : (k.setReg r v).checked = k.checked := by
  unfold Core.setReg; split <;> rfl
@[simp] theorem Core.setReg_walk (k : Core) (r : Nat) (v : W64) : (k.setReg r v).walk = k.walk := by
  unfold Core.setReg; split <;> rfl
@[simp] theorem Core.setReg_reqs (k : Core) (r : Nat) (v : W64) : (k.setReg r v).reqs = k.reqs := by
  unfold Core.setReg; split <;> rfl
@[simp] theorem Core.setReg_near (k : Core) (r : Nat) (v : W64) : (k.setReg r v).near = k.near := by
  unfold Core.setReg; split <;> rfl
@[simp] theorem Core.setReg_cmds (k : Core) (r : Nat) (v : W64) : (k.setReg r v).cmds = k.cmds := by
  unfold Core.setReg; split <;> rfl
@[simp] theorem Core.setReg_services (k : Core) (r : Nat) (v : W64) : (k.setReg r v).services = k.services := by
  unfold Core.setReg; split <;> rfl
@[simp] theorem Core.setReg_arriving (k : Core) (r : Nat) (v : W64) : (k.setReg r v).arriving = k.arriving := by
  unfold Core.setReg; split <;> rfl
@[simp] theorem Core.setReg_epi (k : Core) (r : Nat) (v : W64) : (k.setReg r v).epi = k.epi := by
  unfold Core.setReg; split <;> rfl
@[simp] theorem Core.setReg_stopAt (k : Core) (r : Nat) (v : W64) : (k.setReg r v).stopAt = k.stopAt := by
  unfold Core.setReg; split <;> rfl
@[simp] theorem Core.setReg_gateOpen (k : Core) (r : Nat) (v : W64) : (k.setReg r v).gateOpen = k.gateOpen := by
  unfold Core.setReg; split <;> rfl
@[simp] theorem Core.setReg_haltTide (k : Core) (r : Nat) (v : W64) : (k.setReg r v).haltTide = k.haltTide := by
  unfold Core.setReg; split <;> rfl
@[simp] theorem Core.setReg_kbase (k : Core) (r : Nat) (v : W64) : (k.setReg r v).kbase = k.kbase := by
  unfold Core.setReg; split <;> rfl
@[simp] theorem Core.setReg_started (k : Core) (r : Nat) (v : W64) : (k.setReg r v).started = k.started := by
  unfold Core.setReg; split <;> rfl
@[simp] theorem Core.setReg_ackedAt (k : Core) (r : Nat) (v : W64) : (k.setReg r v).ackedAt = k.ackedAt := by
  unfold Core.setReg; split <;> rfl
@[simp] theorem Core.setReg_fencedAt (k : Core) (r : Nat) (v : W64) : (k.setReg r v).fencedAt = k.fencedAt := by
  unfold Core.setReg; split <;> rfl
@[simp] theorem Core.setReg_bankUse (k : Core) (r : Nat) (v : W64) : (k.setReg r v).bankUse = k.bankUse := by
  unfold Core.setReg; split <;> rfl
@[simp] theorem Core.setReg_wentQuiet (k : Core) (r : Nat) (v : W64) : (k.setReg r v).wentQuiet = k.wentQuiet := by
  unfold Core.setReg; split <;> rfl
@[simp] theorem Core.setReg_ahead (k : Core) (r : Nat) (v : W64) : (k.setReg r v).ahead = k.ahead := by
  unfold Core.setReg; split <;> rfl
@[simp] theorem Core.setReg_ord (k : Core) (r : Nat) (v : W64) : (k.setReg r v).ord = k.ord := by
  unfold Core.setReg; split <;> rfl

end Sys2Proof.Machine
end

