-- ==== Sys2Proof/Tests/Slice0.lean ====
section
/-!
SUPPORT. Tests of the model: ill-formed terms, words written out bit by bit, single steps on small states, and for each
obligation with hypotheses a state that meets them.
-/

namespace Sys2Proof.Tests

open Sys2Proof.Machine

set_option Elab.async false

/-! ### Small states -/

/-- A ready package; core 0 issues. -/
def base : State := { State.reset with boot := .ready, tide := 100, now := [], diepres := 0xF, stkpres := 0xFF }

/-- `base` with its core 0 changed. -/
def on0 (f : Core → Core) : State := base.modCore 0 f

def withReg (r : Nat) (v : W64) (k : Core) : Core := { k with sreg := vset k.sreg r v }
def withTile (n : Nat) (w : W32) (k : Core) : Core := k.setTile n { c := true, shape := w }
def withRing (n : Nat) (c : W64) (k : Core) : Core := k.setRing n { cfg := c }

/-- 4 rows of 128 columns, by TYPE. -/
def fp32Shape : W32 := 0x0000037F
def bf16Shape : W32 := 0x2000037F

/-- Registers 1 to 5: 5, −1, −2^63, 0, 2. -/
def scalars : State := on0 (fun k =>
  ((((k |> withReg 1 5) |> withReg 2 0xFFFFFFFFFFFFFFFF) |> withReg 3 0x8000000000000000) |> withReg 5 2))

/-- Three tiles of a shape. -/
def tiles3 (w : W32) : State := on0 (fun k => ((k |> withTile 0 w) |> withTile 1 w) |> withTile 2 w)


/-! ### Ill-formed terms -/

/-- A code that its word does not assign, or a reserved bit, is refused (R294); a good term beside each is not. -/
theorem test_ill_formed_scalar : (Instr.cmp 0 1 2 3 6).wf = false ∧ (Instr.cmp 0 1 2 3 5).wf = true ∧
    (Instr.loop 0 0 4).wf = false ∧ (Instr.loop 0 1 4).wf = true ∧ (Instr.rmode 0 0 0 0).wf = false ∧
    (Instr.rmode 1 0 0 6).wf = false ∧ (Instr.rmode 1 0 0 5).wf = true := by decide
theorem test_ill_formed_vector : (Instr.vadd 0 1 2 16 0 0 0 0 0).wf = false ∧ (Instr.vadd 0 1 2 15 0 0 0 1 0).wf = true ∧
    (Instr.vadd 0 1 2 16 1 0 0 1 0).wf = false ∧ (Instr.vadd 0 1 2 16 1 0 0 0 0).wf = true ∧
    (Instr.vfma 0 1 2 3 0 0 0 0 3).wf = false ∧ (Instr.vmax 0 1 2 16 0 0 0 0).wf = false ∧
    (Instr.vcmp 0 1 2 3 0 0 0 0 6).wf = false ∧ (Instr.vred 0 1 2 0 0 6).wf = false ∧ (Instr.ttr 0 4 4).wf = false := by
  decide
theorem test_ill_formed_memory : (Instr.ld 0 1 2 3 3 0 0).wf = false ∧ (Instr.ld 0 1 2 3 2 1 3).wf = false ∧
    (Instr.ld 0 1 2 3 2 0 3).wf = true ∧ (Instr.ldg 0 1 2 3 1 3).wf = false ∧ (Instr.ldt 0 1 2 3 0 0 1).wf = false ∧
    (Instr.ldt 0 1 2 3 1 1 0).wf = false ∧ (Instr.ldt 0 1 2 3 1 1 1).wf = true ∧ (Instr.ldr 0 1 2 3 3 0).wf = false ∧
    (Instr.gth 0 1 2 3 2).wf = false ∧ (Instr.st 0 1 2 3 3 0).wf = false := by decide
theorem test_ill_formed_sync : (Instr.fence 0 5 1).wf = false ∧ (Instr.fence 0 4 0).wf = false ∧ (Instr.fence 0 4 1).wf = true ∧
    (Instr.ldaq 0 1 2 1 3 0 0).wf = false ∧ (Instr.ldaq 0 1 2 0 3 0 2).wf = false ∧ (Instr.strl 0 3 1 2 0 1).wf = false ∧
    (Instr.atom 0 1 2 0 9 0 0).wf = false ∧ (Instr.cas 0 1 2 3 5 0).wf = false ∧ (Instr.rlk 0 1 0 2).wf = false ∧
    (Instr.send 0 1 0 0 0 0 0 0 0 0).wf = false ∧ (Instr.send 0 1 0 3 1 0 0 0 0 0).wf = false ∧
    (Instr.send 0 1 0 0 0 0 0 0 0 3).wf = true ∧ (Instr.csrr 0 1 6).wf = false ∧ (Instr.csrw 0 1 0xA8).wf = false := by decide
/-- Steps of the package name what is there. -/
theorem test_ill_formed_steps : (Instr.uncorrectableFlit 4 true).wf = false ∧ (Instr.stationDown 16).wf = false ∧
    (Instr.ethernetPortDown 8).wf = false ∧ (Instr.inboxWrite 0xFFFFFFFEFFFF []).wf = false ∧
    (Instr.inboxWriteSend 256 0).wf = false ∧ (Instr.remoteAccess ⟨0, 0, 2 ^ 48, .read 1⟩).wf = false ∧
    (Instr.partitionConfigWrite 0 256 0).wf = false ∧ (Instr.pcmdReset 32).wf = false ∧ (Instr.keyOwnerWrite 2048 0).wf = false ∧
    (Instr.inboxBindingWrite 32768 0).wf = false ∧ (Instr.attest 257).wf = false ∧ (Instr.taskTake 0 0).wf = false ∧
    (Instr.taskTake 256 512).wf = false ∧ (Instr.flrVf 257).wf = false ∧ (Instr.gateOpen 256).wf = false ∧
    (Instr.bankRefresh 131072).wf = false ∧ (Instr.admissionDecision 4).wf = false ∧ (Instr.coolingReclaim 0 1024).wf = false ∧
    (Instr.chainEntryFetch 0 8).wf = false ∧ (Instr.tileReloadComplete 0 16).wf = false ∧ (Instr.phaseOne 0 16).wf = false ∧
    (Instr.illegalWord 0 8 1 0).wf = false ∧ (Instr.illegalWord 0 0 3 0).wf = false := by decide

/-! ### Words, written out bit by bit from their layouts (R285 to R299) -/

/-- Every word of the S engine: E, I, OP, then the fields from the highest bit down. -/
theorem test_words_s :
  decode 0b000_010_000001_01001_10110_10101_00000#32 = .instr (.add 2 9 0x16 0x15) ∧
  decode 0b000_001_000010_11100_01011_10011_00000#32 = .instr (.sub 1 0x1C 0xB 0x13) ∧
  decode 0b000_000_000011_01110_00011_0001101010#32 = .instr (.addi 0 0xE 3 0x6A) ∧
  decode 0b000_101_000100_10000_11111_10011_00000#32 = .instr (.mul 5 0x10 0x1F 0x13) ∧
  decode 0b000_110_000101_00111_01011_10101_0000_1#32 = .instr (.mulh 6 7 0xB 0x15 1) ∧
  decode 0b000_110_000110_00011_10101_10001_000_10#32 = .instr (.div 6 3 0x15 0x11 2) ∧
  decode 0b000_001_000111_00111_10011_01000_00000#32 = .instr (.and 1 7 0x13 8) ∧
  decode 0b000_011_001000_00100_00111_01001_00000#32 = .instr (.or 3 4 7 9) ∧
  decode 0b000_100_001001_01010_10111_01001_00000#32 = .instr (.xor 4 0xA 0x17 9) ∧
  decode 0b000_001_001010_11101_01001_1011010011#32 = .instr (.andi 1 0x1D 9 0x2D3) ∧
  decode 0b000_011_001011_10011_01000_0000111010#32 = .instr (.ori 3 0x13 8 0x3A) ∧
  decode 0b000_100_001100_01001_00101_1011001000#32 = .instr (.xori 4 9 5 0x2C8) ∧
  decode 0b000_101_001101_10100_11000_01111_00000#32 = .instr (.shl 5 0x14 0x18 0xF) ∧
  decode 0b000_100_001101_10010_11011_01110_1000_0#32 = .instr (.shlImm 4 0x12 0x1B 0xE 0) ∧
  decode 0b000_110_001110_11110_10111_11100_00000#32 = .instr (.shr 6 0x1E 0x17 0x1C) ∧
  decode 0b000_010_001110_11001_10011_01110_1000_1#32 = .instr (.shrImm 2 0x19 0x13 0xE 1) ∧
  decode 0b000_001_001111_11110_10100_00010_00000#32 = .instr (.sar 1 0x1E 0x14 2) ∧
  decode 0b000_011_001111_01110_00110_11011_1000_0#32 = .instr (.sarImm 3 0xE 6 0x1B 0) ∧
  decode 0b000_100_010000_00001_11010_10101_0000_1#32 = .instr (.min 4 1 0x1A 0x15 1) ∧
  decode 0b000_110_010001_11111_01111_10001_0000_0#32 = .instr (.max 6 0x1F 0xF 0x11 0) ∧
  decode 0b000_010_010010_00100_11111_0000000000#32 = .instr (.clz 2 4 0x1F) ∧
  decode 0b000_101_010011_00001_00011_0000000000#32 = .instr (.popc 5 1 3) ∧
  decode 0b000_001_010100_00011_01011_01001_00011#32 = .instr (.cmp 1 3 0xB 9 3) ∧
  decode 0b000_001_010101_11111_10110_11001_01010#32 = .instr (.sel 1 0x1F 0x16 0x19 0xA) ∧
  decode 0b000_000_010110_11010_000001101111010#32 = .instr (.li 0 0x1A 0x37A) ∧
  decode 0b000_011_010111_10001_100000011011010#32 = .instr (.lsi 3 0x11 0x40DA) ∧
  decode 0b000_000_011000_00110_00001_0000000000#32 = .instr (.spt 0 6 1) ∧
  decode 0b000_010_011001_11101_01010_000000000_0#32 = .instr (.spc 2 0x1D 0xA 0) ∧
  decode 0b000_100_011010_0_100000001_0001110000#32 = .instr (.loop 4 0x101 0x70) ∧
  decode 0b000_001_011010_1000000_010_0011110110#32 = .instr (.loopReg 1 2 0xF6) ∧
  decode 0b000_011_011011_00000000000000000000#32 = .instr (.endl 3) ∧
  decode 0b000_100_011100_00000000000000000000#32 = .instr (.nop 4) ∧
  decode 0b000_110_011101_00000000000000000000#32 = .instr (.halt 6) ∧
  decode 0b000_001_011110_01111_10000_00110_0000_0#32 = .instr (.bfx 1 0xF 0x10 6 0) ∧
  decode 0b000_100_011111_01101_11111_11100_00000#32 = .instr (.bfi 4 0xD 0x1F 0x1C) := by
  and_intros <;> decide +kernel

/-- Every word of all engines: E, I, OP, then the fields from the highest bit down. -/
theorem test_words_universal :
  decode 0b001_100_111101_00000000000000000000#32 = .instr (.gate 1 4) ∧
  decode 0b010_100_111110_00100100110100101101#32 = .instr (.wait 2 4 0x24D2D) ∧
  decode 0b110_000_111111_11000_000111_0_00000000#32 = .instr (.guard 6 0x18 7 0) ∧
  decode 0b101_000_011110_0000000000000000_1_100#32 = .instr (.rmode 5 0 1 4) := by
  and_intros <;> decide +kernel

/-- Every word of the V engine: E, I, OP, then the fields from the highest bit down. -/
theorem test_words_v :
  decode 0b001_100_000001_0111_1110_11101_1_0_0_0_00_0#32 = .instr (.vadd 4 7 0xE 0x1D 1 0 0 0 0) ∧
  decode 0b001_001_000010_1111_1101_10010_1_0_0_0_00_1#32 = .instr (.vsub 1 0xF 0xD 0x12 1 0 0 0 1) ∧
  decode 0b001_001_000011_0100_1100_00111_1_0_1_0_00_1#32 = .instr (.vmul 1 4 0xC 7 1 0 1 0 1) ∧
  decode 0b001_010_000100_1111_1010_01101_1_1_1_0_0_10#32 = .instr (.vfma 2 0xF 0xA 0xD 1 1 1 0 2) ∧
  decode 0b001_111_000101_0010_1010_11100_1_1_0_0_000#32 = .instr (.vmax 7 2 0xA 0x1C 1 1 0 0) ∧
  decode 0b001_111_000110_1111_0110_01101_0_0_1_0_000#32 = .instr (.vmin 7 0xF 6 0xD 0 0 1 0) ∧
  decode 0b001_101_000111_0001_1101_000000_0_1_000_0#32 = .instr (.vabs 5 1 0xD 0 1 0) ∧
  decode 0b001_010_001000_0101_1101_000000_0_0_000_1#32 = .instr (.vneg 2 5 0xD 0 0 1) ∧
  decode 0b001_010_001001_0001_0100_01110_1_0_1_0_000#32 = .instr (.vand 2 1 4 0xE 1 0 1 0) ∧
  decode 0b001_100_001010_1001_1010_10101_1_0_1_0_000#32 = .instr (.vor 4 9 0xA 0x15 1 0 1 0) ∧
  decode 0b001_010_001011_1000_1011_01000_0_1_0_1_000#32 = .instr (.vxor 2 8 0xB 8 0 1 0 1) ∧
  decode 0b001_101_001100_1111_1011_01101_0_0_1_0_000#32 = .instr (.vshl 5 0xF 0xB 0xD 0 0 1 0) ∧
  decode 0b001_011_001101_0110_0111_10010_1_1_0_0_00_0#32 = .instr (.vshr 3 6 7 0x12 1 1 0 0 0) ∧
  decode 0b001_000_001110_1010_1011_01110_0_0_1_1_101#32 = .instr (.vcmp 0 0xA 0xB 0xE 0 0 1 1 5) ∧
  decode 0b001_101_001111_0010_0011_01001_1_0_0_0_000#32 = .instr (.vsel 5 2 3 9 1 0 0 0) ∧
  decode 0b001_111_010000_0001_1001_000000_0_1_0_100#32 = .instr (.vred 7 1 9 0 1 4) ∧
  decode 0b001_110_010001_1100_1110_000000_0_0_00_11#32 = .instr (.vscan 6 0xC 0xE 0 0 3) ∧
  decode 0b001_110_010010_1111_0011_10110_1_1_0_0000#32 = .instr (.vbcast 6 0xF 3 0x16 1 0) ∧
  decode 0b001_011_010011_0100_0000_01010_1_0_00000#32 = .instr (.viota 3 4 0xA 0) ∧
  decode 0b001_111_010100_1000_0010_11100_1_0_0_0_000#32 = .instr (.vperm 7 8 2 0x1C 1 0 0 0) ∧
  decode 0b001_100_010101_1110_1001_0_0101_0_1_1_0_00_1#32 = .instr (.vsortk 4 0xE 9 5 1 1 0 1) ∧
  decode 0b001_011_010110_1100_1101_0_1001_0_1_1_0_0_01#32 = .instr (.vsegr 3 0xC 0xD 9 1 1 0 1) ∧
  decode 0b001_110_010111_0011_0101_000000_0_0_0000#32 = .instr (.vexp2 6 3 5 0 0) ∧
  decode 0b001_000_011000_0010_1110_000000_1_1_0000#32 = .instr (.vrcp 0 2 0xE 1 1) ∧
  decode 0b001_001_011001_1001_0100_000000_1_1_0000#32 = .instr (.vrsq 1 9 4 1 1) ∧
  decode 0b001_000_011010_1100_1011_000000_0_0_000_0#32 = .instr (.vcvt 0 0xC 0xB 0 0 0) ∧
  decode 0b001_100_011011_0011_0101_000000_0_0_0000#32 = .instr (.vrnd 4 3 5 0 0) ∧
  decode 0b001_111_011100_0110_1101_000000_0_0_0000#32 = .instr (.vmov 7 6 0xD 0 0) ∧
  decode 0b001_000_011100_1000_0000_00011_1_0_00000#32 = .instr (.vmovScalar 0 8 3 0) ∧
  decode 0b001_000_011101_1111_0101_0_1101_0_1_1_1_000#32 = .instr (.vtmg 0 0xF 5 0xD 1 1 1) := by
  and_intros <;> decide +kernel

/-- Every word of the M engine: E, I, OP, then the fields from the highest bit down. -/
theorem test_words_m :
  decode 0b010_110_000001_00_1011_1110101_0000000#32 = .instr (.mwld 6 0xB 0x75) ∧
  decode 0b010_001_000010_00000000000000000000#32 = .instr (.mswp 1) ∧
  decode 0b010_101_000011_01_0001_1001010_0000000#32 = .instr (.mfwd 5 1 1 0x4A) ∧
  decode 0b010_010_000100_01_0100_1010010_0000000#32 = .instr (.mbwd 2 1 4 0x52) ∧
  decode 0b010_111_000101_00_1110_000000000_0_0001#32 = .instr (.mhad 7 0xE 0 1) ∧
  decode 0b010_011_000110_00_0111_000000000_1_0010#32 = .instr (.mqnt 3 7 1 2) ∧
  decode 0b010_111_000111_11_1110_1010101_00000_1_1#32 = .instr (.mdrn 7 3 0xE 0x55 1 1) ∧
  decode 0b010_111_001000_01_0000_0010100_0000000#32 = .instr (.mclr 7 1 0x14) := by
  and_intros <;> decide +kernel

/-- Every word of the T engine: E, I, OP, then the fields from the highest bit down. -/
theorem test_words_t :
  decode 0b011_001_000001_0_1100_00010_0000000000#32 = .instr (.tcfg 1 0xC 2) ∧
  decode 0b011_101_000010_0_0011_000000000000000#32 = .instr (.tzero 5 3) ∧
  decode 0b011_011_000011_0_0100_0_0101_00000000_0_0#32 = .instr (.trmov 3 4 5 0 0) ∧
  decode 0b011_011_000011_0_1111_0_0111_10001_00100#32 = .instr (.trmovRows 3 0xF 7 0x11) ∧
  decode 0b011_110_000100_0_1011_0_0101_10100_00000#32 = .instr (.tcmov 6 0xB 5 0x14) ∧
  decode 0b011_010_000101_0_1001_0_1110_0000000000#32 = .instr (.ttr 2 9 0xE) ∧
  decode 0b011_000_000110_0_0001_11100_0000000000#32 = .instr (.tldv 0 1 0x1C) ∧
  decode 0b011_111_000111_00110_0_1110_0000000000#32 = .instr (.tmkv 7 6 0xE) ∧
  decode 0b011_011_001000_10010_11011_0000000000#32 = .instr (.dup 3 0x12 0x1B) ∧
  decode 0b011_010_001001_00000_00101_0000000000#32 = .instr (.drop 2 5) ∧
  decode 0b011_100_001010_00000_11010_0000000000#32 = .instr (.reuse 4 0x1A) ∧
  decode 0b011_010_001011_10010_11111_11110_00000#32 = .instr (.upd 2 0x12 0x1F 0x1E) ∧
  decode 0b011_111_001100_11100_00011_0_0010_0000_0#32 = .instr (.updr 7 0x1C 3 2 0) ∧
  decode 0b011_010_001101_10001_11001_0000000000#32 = .instr (.cnt 2 0x11 0x19) := by
  and_intros <;> decide +kernel

/-- Every word of the L engine: E, I, OP, then the fields from the highest bit down. -/
theorem test_words_l :
  decode 0b100_100_000001_01100_11111_11000_10_1_10#32 = .instr (.ld 4 0xC 0x1F 0x18 2 1 2) ∧
  decode 0b100_000_000010_01001_10111_00001_00_1_01#32 = .instr (.ldg 0 9 0x17 1 1 1) ∧
  decode 0b100_000_000011_0_0110_11010_01010_01_0_1_1#32 = .instr (.ldt 0 6 0x1A 0xA 1 1 1) ∧
  decode 0b100_111_000100_0_1110_01111_11010_10_00_1#32 = .instr (.ldr 7 0xE 0xF 0x1A 2 1) ∧
  decode 0b100_000_000101_0_0001_00011_10001_01000#32 = .instr (.ldtr 0 1 3 0x11) ∧
  decode 0b100_100_000110_0_0111_01001_01111_01_000#32 = .instr (.gth 4 7 9 0xF 1) ∧
  decode 0b100_100_000111_00011_11011_10101_01_000#32 = .instr (.ldv 4 3 0x1B 0x15 1) := by
  and_intros <;> decide +kernel

/-- Every word of the W engine: E, I, OP, then the fields from the highest bit down. -/
theorem test_words_w :
  decode 0b101_001_000001_11101_01101_11001_10_0_01#32 = .instr (.st 1 0x1D 0xD 0x19 2 1) ∧
  decode 0b101_000_000010_11001_11110_10110_000_11#32 = .instr (.stg 0 0x19 0x1E 0x16 3) ∧
  decode 0b101_001_000011_0_1011_11111_11011_01_00_1#32 = .instr (.stt 1 0xB 0x1F 0x1B 1 1) ∧
  decode 0b101_001_000100_10000_01110_00100_00000#32 = .instr (.stv 1 0x10 0xE 4) ∧
  decode 0b101_000_000101_0_1100_00001_10110_01_000#32 = .instr (.sct 0 0xC 1 0x16 1) ∧
  decode 0b101_000_000110_11101_10100_01000_00_100#32 = .instr (.red 0 0x1D 0x14 8 4) ∧
  decode 0b101_101_000110_0_0110_10010_00011_0_1_001#32 = .instr (.redRow 5 6 0x12 3 0 1) ∧
  decode 0b101_100_000111_10011_01111_11011_00000#32 = .instr (.kva 4 0x13 0xF 0x1B) ∧
  decode 0b101_111_001000_00010_11101_11010_000_11#32 = .instr (.kvr 7 2 0x1D 0x1A 3) ∧
  decode 0b101_001_001001_0_0011_11101_0000000000#32 = .instr (.bws 1 3 0x1D) ∧
  decode 0b101_011_001010_00000_10010_0000000000#32 = .instr (.bwc 3 0x12) ∧
  decode 0b101_011_001011_00000_00111_0000000000#32 = .instr (.bwa 3 7) := by
  and_intros <;> decide +kernel

/-- Every word of the Y engine: E, I, OP, then the fields from the highest bit down. -/
theorem test_words_y :
  decode 0b110_100_000001_000000000000000_100_11#32 = .instr (.fence 4 4 3) ∧
  decode 0b110_010_000010_11110_01100_00_0_11_011_01#32 = .instr (.ldaq 2 0x1E 0xC 0 3 3 1) ∧
  decode 0b110_111_000011_000_11_01011_01111_011_10#32 = .instr (.strl 7 3 0xB 0xF 3 2) ∧
  decode 0b110_000_000100_11110_01010_0_1000_010_10#32 = .instr (.atom 0 0x1E 0xA 0 8 2 2) ∧
  decode 0b110_011_000101_11100_01010_11001_011_01#32 = .instr (.cas 3 0x1C 0xA 0x19 3 1) ∧
  decode 0b110_010_000110_00000_11100_00000_100_01#32 = .instr (.rlk 2 0x1C 4 1) ∧
  decode 0b110_011_000111_00000_01001_00000_011_10#32 = .instr (.rul 3 9 3 2) ∧
  decode 0b110_000_001000_00000_11001_00000_100_01#32 = .instr (.wlk 0 0x19 4 1) ∧
  decode 0b110_000_001001_00000_10101_00000_011_10#32 = .instr (.wul 0 0x15 3 2) ∧
  decode 0b110_001_001010_00000_00111_00000_010_01#32 = .instr (.bar 1 7 2 1) ∧
  decode 0b110_111_001011_11111_10001_00000_011_10#32 = .instr (.sigf 7 0x1F 0x11 3 2) ∧
  decode 0b110_011_001100_11101_00010_00000_100_01#32 = .instr (.waitf 3 0x1D 2 4 1) ∧
  decode 0b110_011_001101_01010_000000_1101_00000#32 = .instr (.rres 3 0xA 0xD) ∧
  decode 0b110_101_001110_00000_01010_0_0100_00000#32 = .instr (.rpub 5 0xA 4) ∧
  decode 0b110_111_001111_01110_000000_1011_00000#32 = .instr (.rcon 7 0xE 0xB) ∧
  decode 0b110_011_010000_00000_00111_0_1111_00000#32 = .instr (.rrel 3 7 0xF) ∧
  decode 0b110_111_010001_00000_01111_11011_011_10#32 = .instr (.fill 7 0xF 0x1B 3 2) ∧
  decode 0b110_101_010010_01111_10110_00000_100_01#32 = .instr (.take 5 0xF 0x16 4 1) ∧
  decode 0b110_110_010011_00011_00001_11001_00000#32 = .instr (.spawn 6 3 1 0x19) ∧
  decode 0b110_111_010100_00000000000000000000#32 = .instr (.rfence 7) ∧
  decode 0b110_000_010101_1000_11_01_10_00_11_00_00_00#32 = .instr (.send 0 8 3 1 2 0 3 0 0 0) := by
  and_intros <;> decide +kernel

/-- Every word of the X engine: E, I, OP, then the fields from the highest bit down. -/
theorem test_words_x :
  decode 0b111_000_000001_00100_000000000011011#32 = .instr (.csrr 0 4 0x1B) ∧
  decode 0b111_111_000010_00010_000000010001010#32 = .instr (.csrw 7 2 0x8A) ∧
  decode 0b111_001_000011_00000_101010011101111#32 = .instr (.trap 1 0x54EF) ∧
  decode 0b111_000_000100_00101_000000000000000#32 = .instr (.reth 0 5) ∧
  decode 0b111_011_000101_01101_000000000000000#32 = .instr (.fmtw 3 0xD) ∧
  decode 0b111_000_000110_10010_000000000000000#32 = .instr (.ecmd 0 0x12) ∧
  decode 0b111_011_000111_01001_000000000000_110#32 = .instr (.chl 3 9 6) ∧
  decode 0b111_100_001000_00000000000000000_011#32 = .instr (.chk 4 3) ∧
  decode 0b111_011_001000_00000000000000001_100#32 = .instr (.chkStop 3 4) ∧
  decode 0b111_100_001001_11111_00000000000000_0#32 = .instr (.aqp 4 0x1F 0) ∧
  decode 0b111_011_001010_10111_0000000000_1_0110#32 = .instr (.kvtl 3 0x17 1 6) ∧
  decode 0b111_101_001011_0000000000000000_1100#32 = .instr (.kvtu 5 0xC) ∧
  decode 0b111_001_001100_00011_0000000000_10100#32 = .instr (.bwo 1 3 0x14) ∧
  decode 0b111_111_001101_00110_000000000000000#32 = .instr (.opts 7 6) ∧
  decode 0b111_010_001110_00011_000000000000000#32 = .instr (.ckpt 2 3) ∧
  decode 0b111_010_001111_00101_000000000000000#32 = .instr (.talign 2 5) ∧
  decode 0b111_011_001111_00100_000000000000001#32 = .instr (.talignM 3 4) := by
  and_intros <;> decide +kernel

/-- The words of the worked example of 13_encoding.md, with its encodings. -/
theorem test_words_example : decode 0x01628040#32 = .instr (.li 0 5 64) ∧ decode 0x43D00000#32 = .instr (.gate 2 0) ∧
    decode 0xE3D00000#32 = .instr (.gate 7 0) ∧ decode 0x03F38700#32 = .instr (.guard 0 7 3 1) ∧
    decode 0x081318A0#32 = .instr (.add 2 6 6 5) ∧ decode 0x2C1112E0#32 = .instr (.vadd 3 1 1 5 1 1 0 0 0) ∧
    decode 0x03E0000F#32 = .instr (.wait 0 0 15) ∧ decode 0x001398A0#32 = .instr (.add 0 7 6 5) := by decide +kernel

/-- Words of no instruction (R299, R300), and reserved fields with the position that R462 gives: the first field that
offends from the top, by its lowest bit. -/
theorem test_words_refused : decode 0b000_000_000000_11111_00000_00000_00000#32 = .illegal ∧
    decode 0b011_000_011110_00000_00000_00000_00000#32 = .illegal ∧
    decode 0b000_000_000001_00001_00010_00011_00001#32 = .reserved 0 ∧
    decode 0b000_000_010010_00001_00010_00001_00001#32 = .reserved 5 ∧
    decode 0b110_000_000001_00001_00000_00000_111_11#32 = .reserved 15 ∧
    decode 0b110_000_000001_00000_00000_00000_111_11#32 = .reserved 2 ∧
    decode 0b000_001_111111_00111_000011_1_00000001#32 = .reserved 26 ∧
    decode 0b000_000_111111_00111_000011_1_00000001#32 = .reserved 0 := by
  and_intros <;> decide +kernel

/-! ### Single steps -/

/-- The state after a word, what it posts, and that state with everything posted performed. -/
def after (i : Instr) (s : State) : State := match exec i s with
  | .next t => t
  | _ => s
def posted (i : Instr) (s : State) : List POp := (after i s).me.inflight.map Perform.op
def landed (i : Instr) (s : State) : State :=
  (after i s).me.inflight.foldl (fun u p => (after i s).performOne 0 p u) (after i s)

/-- R310: 5 + (2^64 − 1) = 4; 0 − 5; the high half of (2^64 − 1)^2, natural and signed. -/
theorem test_add_wraps : posted (.add 0 8 1 2) scalars = [.reg 8 4] ∧
    posted (.sub 0 8 4 1) scalars = [.reg 8 0xFFFFFFFFFFFFFFFB] := by decide +kernel
theorem test_mulh : posted (.mulh 0 8 2 2 1) scalars = [.reg 8 0xFFFFFFFFFFFFFFFE] ∧
    posted (.mulh 0 8 2 2 0) scalars = [.reg 8 0] := by decide +kernel
/-- R311: −2^63 by −1, 5 by 0, −1 by 2 (a remainder takes the sign of a). -/
theorem test_div_corners : posted (.div 0 8 3 2 0) scalars = [.reg 8 0x8000000000000000] ∧
    posted (.div 0 8 3 2 1) scalars = [.reg 8 0] ∧ posted (.div 0 8 1 4 0) scalars = [.reg 8 0xFFFFFFFFFFFFFFFF] ∧
    posted (.div 0 8 1 4 3) scalars = [.reg 8 5] ∧ posted (.div 0 8 2 5 1) scalars = [.reg 8 0xFFFFFFFFFFFFFFFF] := by
  decide +kernel
/-- R312: −2^63 shifted right by 63 keeps its sign or not; a register amount of −1 counts as 63. -/
theorem test_shifts : posted (.sarImm 0 8 3 31 1) scalars = [.reg 8 0xFFFFFFFFFFFFFFFF] ∧
    posted (.shrImm 0 8 3 31 1) scalars = [.reg 8 1] ∧ posted (.shl 0 8 1 2) scalars = [.reg 8 0x8000000000000000] := by
  decide +kernel
/-- R310: −1 lies below 5 as a signed number, above it as a natural one. -/
theorem test_cmp : posted (.cmp 0 8 2 1 2) scalars = [.reg 8 1] ∧ posted (.cmp 0 8 2 1 4) scalars = [.reg 8 0] ∧
    posted (.min 0 8 2 1 0) scalars = [.reg 8 0xFFFFFFFFFFFFFFFF] ∧ posted (.min 0 8 2 1 1) scalars = [.reg 8 5] := by decide +kernel
theorem test_counts : posted (.clz 0 8 1) scalars = [.reg 8 61] ∧ posted (.clz 0 8 0) scalars = [.reg 8 64] ∧
    posted (.popc 0 8 2) scalars = [.reg 8 64] ∧ posted (.li 0 8 0x4000) scalars = [.reg 8 0xFFFFFFFFFFFFC000] ∧
    posted (.lsi 0 1 0x7FFF) scalars = [.reg 1 0x2FFFF] := by decide +kernel
/-- R312: the field of 4 bits from bit 60 of −2^63 is 0x8, sign-extended −8; put into 5 it is dropped above bit 63. -/
theorem test_fields : let s := scalars.modCore 0 (withReg 6 0x33C)
    posted (.bfx 0 8 3 6 0) s = [.reg 8 8] ∧ posted (.bfx 0 8 3 6 1) s = [.reg 8 0xFFFFFFFFFFFFFFF8] ∧
    posted (.bfi 0 1 2 6) s = [.reg 1 0xF000000000000005] := by decide +kernel
/-- R436's launch table: classes and scratchpad forms. -/
theorem test_pointers : let s := on0 (fun k => { ((((k |> withReg 1 0x8000000000000100) |> withReg 2 0x9000000000012340) |>
      withReg 3 0xA000000000000080) |> withReg 4 0x9000010000012340) with parea := 0x00400300 })
    posted (.spt 0 8 1) s = [.reg 8 1] ∧ posted (.spt 0 8 2) s = [.reg 8 2] ∧ posted (.spt 0 8 3) s = [.reg 8 4] ∧
    posted (.spt 0 8 4) s = [.reg 8 3] ∧ posted (.spt 0 8 0) s = [.reg 8 0] ∧
    posted (.spc 0 8 1 0) s = [.reg 8 0x9000000000300100] ∧ posted (.spc 0 8 3 0) s = [.reg 8 0xF000000000000000] := by
  decide +kernel
/-- R303: a destination of s24 to s31 traps with 0x17; s0 discards the write. -/
theorem test_write_limits : (after (.add 0 24 1 2) scalars).me.fcause = fcauseOf true true 0 0x17 ∧
    (landed (.add 0 0 1 2) scalars).me.reg 0 = 0 := by decide +kernel

/-- R439's keys and first gradient row; a 16-bit index tile with the permutation that the sort leaves. -/
def tokens : State := on0 (fun k => k.setTile 1 { c := true, d := true, shape := 0xA0000007
                                                  data := Memory.write [] 0 ([5, 3, 5, 9, 3, 5, 2, 9].flatMap (bytesOfNat 4)) } |>.setTile 2
    { c := true, d := true, shape := 0x00000007
      data := Memory.write [] 0 ([0x3F800000, 0x3F000000, 0x40000000, 0x3E800000, 0x3F000000, 0x40800000, 0x41000000, 0x3E800000].flatMap
        (bytesOfNat 4)) } |>.setTile 3
    { c := true, d := true, shape := 0xD0000007, data := Memory.write [] 0 ([6, 1, 4, 0, 2, 5, 3, 7].flatMap (bytesOfNat 2)) } |>.setTile 4
    { c := true, d := true, shape := 0xA0000007, data := Memory.write [] 0 ([2, 3, 3, 5, 5, 5, 9, 9].flatMap (bytesOfNat 4)) } |>.setTile 5
    { c := true, d := true, shape := 0x00000007
      data := Memory.write [] 0 ([0x41000000, 0x3F000000, 0x3F000000, 0x3F800000, 0x40000000, 0x40800000, 0x3E800000, 0x3E800000].flatMap
        (bytesOfNat 4)) } |>.setTile 6 { c := true, shape := 0x00000007 } |>.setTile 7 { c := true, shape := 0xA0000007 } |>.setTile 8
    { c := true, shape := 0xD0000007 })

theorem test_vsortk : (landed (.vsortk 0 7 1 8 0 0 0 0) tokens).me.cursorRow 7 = [2, 3, 3, 5, 5, 5, 9, 9] ∧
    (landed (.vsortk 0 7 1 8 0 0 0 0) tokens).me.cursorRow 8 = [6, 1, 4, 0, 2, 5, 3, 7] := by decide +kernel
theorem test_vperm : (landed (.vperm 0 6 2 3 0 0 0 0) tokens).me.cursorRow 6 =
    [0x41000000, 0x3F000000, 0x3F000000, 0x3F800000, 0x40000000, 0x40800000, 0x3E800000, 0x3E800000] := by decide +kernel
theorem test_vsegr : (landed (.vsegr 0 6 5 4 0 0 0 0) tokens).me.cursorRow 6 =
      [0x41000000, 0x3F800000, 0x40E00000, 0x3F000000, 0, 0, 0, 0] ∧
    (landed (.vsegr 0 7 4 4 0 0 0 3) tokens).me.cursorRow 7 =
      [2, 3, 5, 9, 0xFFFFFFFF, 0xFFFFFFFF, 0xFFFFFFFF, 0xFFFFFFFF] := by decide +kernel
/-- Lane by lane by hand: 1 + 1 = 2 to 8 + 8 = 16; 1 − 8 = −7 in lane 0; VRED.add of 1, 0.5, 2, 0.25, 0.5, 4, 8, 0.25 is 16.5. -/
theorem test_vadd : ((landed (.vadd 0 6 2 2 0 0 0 0 0) tokens).me.cursorRow 6).take 2 = [0x40000000, 0x3F800000] ∧
    ((landed (.vsub 0 6 2 5 0 0 0 0 0) tokens).me.cursorRow 6).take 1 = [0xC0E00000] := by decide +kernel
theorem test_vred : ((landed (.vred 0 6 2 0 0 0) tokens).me.cursorRow 6).take 1 = [0x41840000] := by decide +kernel
/-- R258, R259: 1 + 2^−8 and 1 + 3 · 2^−8 lie midway between two BF16 numbers: RNE takes the even one. -/
theorem test_vcvt_ties : ((landed (.vcvt 0 1 0 0 0 0) (on0 (fun k => k.setTile 0 { c := true, d := true, shape := 0x00000001, data := Memory.write [] 0 ([0x3F808000, 0x3F818000].flatMap (bytesOfNat 4)) } |>.setTile 1
          { c := true, shape := 0x20000001 }))).me.cursorRow 1) = [0x3F80, 0x3F82] := by decide +kernel

/-- R434 at ~2, ~11, ~14 and ~40: the first handle, the count of two references, an update of a value with two, and VHEAP
with two blocks Cooling. -/
def upd3 (n : Nat) (x : BlockState) : State := on0 (fun k =>
  { ((((k |> withTile 1 0xA0000103) |> withReg 5 0xB000000000000000) |> withReg 8 6) |> withReg 9 0xFFFFFFFD) with
    vheap := 0x00040200
    blocks := if n = 0 then [] else [(0, { state := x, head := true, count := n, shape := 0xA0000103 }),
      (1, { state := if x = .cooling then x else .free, head := true, count := 0, shape := 0xA0000103 })] })

theorem test_values : (posted (.tmkv 0 5 1) (upd3 0 .live)).contains (.reg 5 0xB000000000000000) = true ∧
    (posted (.cnt 0 10 5) (upd3 2 .live)).contains (.reg 10 2) = true ∧
    (posted (.upd 0 8 5 8) (upd3 2 .live)).contains (.reg 8 0xB000000000000001) = true ∧
    posted (.csrr 0 12 0x1B) (upd3 1 .cooling) = [.reg 12 0x0002000000040200] ∧
    (after (.dup 0 7 5) (upd3 1 .live)).me.block 0 = { ((upd3 1 .live).me.block 0) with count := 2 } := by decide +kernel

/-- R436: the prologue's store of d to private offset 0x100; R5: the lowest byte first. -/
theorem test_store : posted (.stg 0 1 2 0 3) (on0 (fun k => { (k |> withReg 1 0x0123456789ABCDEF) |> withReg 2 0x8000000000000100 with
      parea := 0x00400300 })) = [.store (.scratch 0x300100) [0xEF, 0xCD, 0xAB, 0x89, 0x67, 0x45, 0x23, 0x01]] := by decide +kernel

/-- R444: KCFG0 places two slots at 0x2000; the first positions are s6 and s7 of its table; so are the page headers. -/
theorem test_ring_words : ({ cfg := 0x0000010200010080 } : Ring).slotWord 0 = 0x0000200000000000 ∧
    ({ cfg := 0x0000010200010080 } : Ring).slotWord 1 = 0x0000224000000001 := by decide +kernel
theorem test_page_header : ({ share := 1, tag := 1, fmt := 0, fill := 2, ks := 0x79, vs := 0x7A } : PageHeader).pack =
      0x000008000BD3C802 ∧ firstScale 0 ([0x3F80, 0xC000, 0].map (valueOf tBF16)) = 0x79 ∧
    firstScale 0 ([0x4080, 0].map (valueOf tBF16)) = 0x7A := by decide +kernel
/-- R447: a limit of 2.5 over a norm of 5.0 scales by one half; R436: the completion record of a fault with cause 0x0C. -/
theorem test_sigma : fdiv 0x40200000 0x40A00000 = 0x3F000000 ∧ fsqrt 0x41C80000 = 0x40A00000 := by decide +kernel
theorem test_record : (recordBytes 3 0x0C 0 0 0 0 0).take 8 = bytesOfNat 8 0x030C000000000000 := by decide +kernel

/-- The example under R305: ADD s6, s2, s10 and VADD t1, t1, s14 at one tide need three ports of bank 2. -/
def conflict : State := (on0 (fun k => { (k |> withTile 1 0x0000037F) with task := some 7, mode := .running }.setQueue 0
    { words := [⟨0, 0b000_000_000001_00110_00010_01010_00000#32, [], none, 0, false⟩], nxt := 100 } |>.setQueue 1
    { words := [⟨1, 0b001_000_000001_0001_0001_01110_1_0_0_0_000#32, [], none, 0, false⟩], nxt := 100 }))

theorem test_port_conflict :
    (match step { conflict with now := [.group 0] } with
      | .next t => [(t.core 0).fcause, (t.core 0).finfo]
      | _ => []) = [0xE400000000000004, 0x4E] := by decide +kernel

/-- R447: core 0x01's forward row, 0.75 · 1.0 + 1.0 · 2.0 = 2.75 and 0.75 · 0.5 = 0.375; its saved X, the bytes 0x3C and
0x40 with scale 0x7E, are 0.75 and 1.0. -/
theorem test_matrix : (chainBf16 0 ([0x3F40, 0x3F80].map (valueOf tBF16)) ([0x3F80, 0x4000].map (valueOf tBF16))).1 = 0x40300000 ∧
    (chainBf16 0 ([0x3F40, 0x3F80].map (valueOf tBF16)) ([0x3F00, 0].map (valueOf tBF16))).1 = 0x3EC00000 ∧
    f32 (mxValue 0x7E 0x3C, 0) = 0x3F400000 ∧ f32 (mxValue 0x7E 0x40, 0) = 0x3F800000 := by decide +kernel

/-- ADDI s6, s0, 7 at the fetch place is what the next step runs. -/
theorem test_first_word : (match step (State.reset.withFetchWord 32 0b000_000_000011_00110_00000_0000000111) with
      | .next t => (t.core 0).inflight.map Perform.op
      | _ => []) = [.reg 6 7] := by decide +kernel
theorem test_table_word : decodeTableWord 32 0x081318A0 = some (.add 2 6 6 5) := by decide +kernel
/-! ### Hypotheses met: the S engine and control -/

/-- `ScalarWordsComplete`, `CountsAndPointersComplete`: the last register that R303 allows. -/
theorem witness_scalar_words : (23#5).toNat < 24 ∧ scalars.roomy := by decide +kernel

/-- `MultiplyDivideComplete`: a divisor of zero, another one, and −2^63 by −1. -/
theorem witness_divide : (23#5).toNat < 24 ∧ scalars.roomy ∧ scalars.reg 4 = 0 ∧ scalars.reg 5 ≠ 0 ∧
    scalars.reg 3 = 0x8000000000000000 ∧ scalars.reg 2 = 0xFFFFFFFFFFFFFFFF := by decide +kernel

/-- A core with 512 exposed operations in flight, the most that R128 allows. -/
def full : State := on0 (fun k => { k with inflight := (List.range 512).map (fun n => ⟨200, 0, n, .use, [], true, false⟩) })

theorem eraseDups_of_nodup (l : List Nat) (h : l.Nodup) : l.eraseDups = l := by
  induction l with
  | nil => rfl
  | cons a l ih =>
    obtain ⟨ha, hl⟩ := List.nodup_cons.mp h
    rw [List.eraseDups_cons, List.filter_eq_self.mpr, ih hl]
    intro b hb
    have : b ≠ a := fun e => ha (e ▸ hb)
    simp [this]

theorem full_count : full.me.exposedCount = 512 := by
  have h : ((full.me.inflight ++ full.me.captured).filter Perform.exposed).map Perform.ord = List.range 512 := by
    decide +kernel
  rw [Core.exposedCount, h, eraseDups_of_nodup _ List.nodup_range, List.length_range]

/-- `ScalarWordsTrap`: the first register that R303 forbids; 512 operations in flight. -/
theorem witness_scalar_traps : 24 ≤ (24#5).toNat ∧ (23#5).toNat < 24 ∧ 512 ≤ full.me.exposedCount :=
  ⟨by decide, by decide, Nat.le_of_eq full_count.symm⟩

/-- `ShiftsAndFieldsComplete`: fields at both ends of the word. -/
theorem witness_fields : (1#5).toNat < 24 ∧ scalars.roomy ∧ (0 : Nat) < 64 ∧ (63 : Nat) < 64 := by decide +kernel

/-- Pointers at the ends of each form (R148, R151), the private area being pages 1 to 16. -/
def pointers : State := on0 (fun k => { ((((((k |> withReg 1 0x01FFFFFFFFFFFFFF) |> withReg 2 0x80000000000FFFFF) |>
  withReg 3 0xC000000000000000) |> withReg 4 0x800000000000FFFF) |> withReg 5 0x90000000003FFFFF) |>
  withReg 6 0x8000000000000000) with parea := 0x100001 })

/-- `CountsAndPointersComplete`: each range of pointers at a boundary. -/
theorem witness_pointers : pointers.roomy ∧ (pointers.reg 1).toNat < 2 ^ 57 ∧ 8 * 2 ^ 60 ≤ (pointers.reg 2).toNat ∧
    (pointers.reg 2).toNat < 8 * 2 ^ 60 + 2 ^ 20 ∧ 12 * 2 ^ 60 ≤ (pointers.reg 3).toNat ∧
    pointers.reg 2 = w64 (8 * 2 ^ 60 + (2 ^ 20 - 1)) ∧ pointers.reg 4 = w64 (8 * 2 ^ 60 + 65535) ∧
    pointers.me.vid < 256 ∧ pointers.reg 5 = scratchPtr pointers.me.vid (2 ^ 22 - 1) := by decide +kernel

/-- Core 0's registers as pointers to another core's scratchpad, to cohort memory of its cohort and of another, to a value
of its heap and of another's; and words of each kind that is no pointer (R148). -/
def windows (x : W64) : State := on0 (withReg 1 x)

/-- `CountsAndPointersComplete`: the other windows, at the ends of their ranges. -/
theorem witness_windows : base.me.vid = 0 ∧ (windows (scratchPtr 255 (2 ^ 22 - 1))).reg 1 = scratchPtr 255 (2 ^ 22 - 1) ∧
    (windows 0xA0000000007FFFFF).reg 1 = w64 (10 * 2 ^ 60 + 0 * 2 ^ 40 + (2 ^ 23 - 1)) ∧
    (windows 0xA0001F0000000000).reg 1 = w64 (10 * 2 ^ 60 + 31 * 2 ^ 40 + 0) ∧
    0 = base.me.vid / 64 * 8 + base.me.vid / 16 % 4 * 2 + base.me.vid / 4 % 2 ∧
    (windows 0xB0000000FFFFFFFF).reg 1 = w64 (11 * 2 ^ 60 + 0 * 2 ^ 40 + (2 ^ 16 - 1) * 2 ^ 16 + (2 ^ 16 - 1)) ∧
    (windows 0xB000FF0000000000).reg 1 = w64 (11 * 2 ^ 60 + 255 * 2 ^ 40 + 0 * 2 ^ 16 + 0) ∧
    wbits ((windows 0x1000000000000000).reg 1) 63 60 = 1 ∧ wbits ((windows 0x7FFFFFFFFFFFFFFF).reg 1) 63 60 = 7 ∧
    wbits ((windows 0x0200000000000000).reg 1) 63 60 = 0 ∧
    wbits ((windows 0x0200000000000000).reg 1) 59 57 ≠ 0 ∧ wbits ((windows 0x8000000000100000).reg 1) 59 20 ≠ 0 ∧
    wbits ((windows 0x9001000000000000).reg 1) 59 48 ≠ 0 ∧ wbits ((windows 0x9000000000400000).reg 1) 39 22 ≠ 0 ∧
    wbits ((windows 0xA000200000000000).reg 1) 59 45 ≠ 0 ∧ wbits ((windows 0xA000000000800000).reg 1) 39 23 ≠ 0 ∧
    wbits ((windows 0xB001000000000000).reg 1) 59 48 ≠ 0 ∧ wbits ((windows 0xB000000100000000).reg 1) 39 32 ≠ 0 := by
  and_intros <;> decide +kernel

/-- `RegisterWritePerforms`: the last core, registers 0 and 31. -/
theorem witness_register_write : (⟨0, 0, 0, .reg 31 7, [], true, false⟩ : Perform).op = .reg 31 7 ∧ 255 < 256 ∧
    31 < 32 ∧ (0 : Nat) = 0 ∧ (31 : Nat) ≠ 0 ∧ (30 : Nat) ≠ 31 := by decide +kernel

/-- A state whose issuing word fetch has found misplaced. -/
def misplaced : State := { base with cur := { base.cur with q := { base.cur.q with bad := true } } }

/-- Launch registers with the trip counts 1, 2^24, 0 and 2^24 + 1. -/
def trips : State := on0 (fun k =>
  (((k |> withReg 24 1) |> withReg 25 0x1000000) |> withReg 26 0) |> withReg 27 0x1000001)

/-- `ControlWordsComplete`, `LoopFaults`, `HaltCompletes`. -/
theorem witness_control : base.cur.core < 256 ∧ base.cur.q.bad = false ∧ misplaced.cur.q.bad = true ∧
    misplaced.inHandler = false ∧ base.inHandler = false ∧ (5#3 = 1 ∨ 5#3 = 2 ∨ (5#3 : BitVec 3) = 5) ∧ (1 : Nat) ≠ 5 ∧
    1 ≤ (trips.me.reg 24).toNat ∧ (trips.me.reg 25).toNat ≤ 2 ^ 24 ∧ (trips.me.reg 26).toNat = 0 ∧
    2 ^ 24 < (trips.me.reg 27).toNat := by decide +kernel

/-! ### Hypotheses met: the V engine -/

/-- `LaneArithmeticCompletes`, `LaneBitsComplete`: tiles alike, of FP32, of I32 and of BF16, with the scalar b too. -/
theorem witness_lanes : (tiles3 fp32Shape).roomy ∧
    (tiles3 fp32Shape).me.alike clsFI (vTiles 0 1 ((tiles3 fp32Shape).vOperand 2 0)) ∧
    (tiles3 0xA000037F).me.alike clsI (vTiles 0 1 ((tiles3 0xA000037F).vOperand 2 0)) ∧
    (tiles3 bf16Shape).me.alike clsF [0, 1] := by decide +kernel

/-- Tiles 0 to 5: FP32, I32 and E4M3 of 128 columns, MXFP8 of 128, U16 and E8M0 of 128. -/
def tileMix : State := on0 (fun k => ((((((k |> withTile 0 fp32Shape) |> withTile 1 0xA000037F) |>
  withTile 2 0x3000037F) |> withTile 3 0x5000037F) |> withTile 4 0xD000037F) |> withTile 5 fp32Shape) |> withReg 1 127)

/-- `LaneBitsComplete`, VCMP: an integer destination for FP32 operands. -/
theorem witness_compare : tileMix.roomy ∧ tileMix.me.usable 1 ∧ isI (tileMix.me.tile 1).ty = true ∧
    tileMix.me.alike clsFI ((vTiles 1 0 (tileMix.vOperand 5 0)).drop 1) ∧
    (tileMix.me.tile 1).cols = (tileMix.me.tile 0).cols ∧
    (tiles3 0x3000037F).me.alike clsFIP (vTiles 0 1 ((tiles3 0x3000037F).vOperand 2 0)) := by decide +kernel

/-- `RowWordsComplete`: reductions of both kinds, the last column for VBCAST, conversions of both kinds. -/
theorem witness_rows :
    tileMix.me.usable 0 ∧ tileMix.me.usable 1 ∧ isF (tileMix.me.tile 0).ty = true ∧ isI (tileMix.me.tile 1).ty = true ∧
    tileMix.me.alike clsFI [0, 5] ∧ tileMix.me.alike clsFIP [0, 5] ∧ (tileMix.reg 1).toNat < (tileMix.me.tile 5).cols ∧ tileMix.me.alike clsF [0] ∧
    tileMix.me.alike (fun _ => true) [3, 3] ∧ (valueOf 0 0x3F800000).isZero = false ∧ clsFIP (tileMix.me.tile 0).ty = true ∧
    (tileMix.me.tile 0).ty ≠ tE8M0 ∧ (tileMix.me.tile 3).cols = (tileMix.me.tile 0).cols ∧ isI (tileMix.me.tile 4).ty = true ∧
    isK (tileMix.me.tile 1).ty = false := by
  and_intros <;> decide +kernel

/-- `RowWordsComplete`: a zero of each sign, the lanes 0, 127 and one beyond for an index tile, and conversions from and to
a block type and between integers. -/
theorem witness_row_values :
    (match valueOf 0 0x80000000, valueOf 0 0 with | .fin true 0 _ false, .fin false 0 _ false => true | _, _ => false) = true ∧
    tileMix.me.alike clsF [0, 5] ∧ tileMix.me.usable 4 ∧ (tileMix.me.tile 4).cols = (tileMix.me.tile 0).cols ∧
    (tileMix.me.tile 5).ty = (tileMix.me.tile 0).ty ∧ [0, 127, 128].map (intOf 13) = [0, 127, 128] ∧
    (0 ≤ (127 : Int) ∧ (127 : Int) < (tileMix.me.tile 0).cols ∧ ¬ ((128 : Int) < (tileMix.me.tile 0).cols)) ∧
    isK (tileMix.me.tile 3).ty = true ∧ isK (tileMix.me.tile 0).ty = false ∧ isI (tileMix.me.tile 0).ty = false ∧
    (tileMix.me.tile 1).ty ≠ tE8M0 ∧ tileMix.me.usable 3 ∧ (tileMix.me.tile 3).ty ≠ tE8M0 := by
  and_intros <;> decide +kernel

/-- `TripleWordsComplete`: keys and a 16-bit index tile; FP32 triples on rows 0 and 1. -/
theorem witness_triples :
    tileMix.me.alike clsFI [5, 0] ∧ (tileMix.me.tile 4).ty ∈ [9, 10, 13, 14] ∧ (tileMix.me.tile 4).cols = (tileMix.me.tile 0).cols ∧
    (0#2 ≠ 3 ∧ 2#2 ≠ 3) ∧ clsFI (tileMix.me.tile 1).ty = true ∧ (tileMix.me.tile 0).ty = (tileMix.me.tile 5).ty ∧
    ∀ n ∈ [0, 0, 5], (tileMix.me.tile n).ty = tFP32 ∧ (tileMix.me.tile n).cols = 128 ∧ (tileMix.me.tile n).cur % 2 = 0 ∧
      (tileMix.me.tile n).cur + 1 < (tileMix.me.tile n).rows := by
  and_intros <;> decide +kernel

/-- `IntegerLanesFit`: I8 at both ends of its range and one beyond each. -/
theorem witness_fit : isI 8 = true ∧ intMin 8 ≤ -128 ∧ (127 : Int) ≤ intMax 8 ∧ intMax 8 < 128 ∧ -129 < intMin 8 := by
  decide +kernel

/-! ### Hypotheses met: the M engine -/

/-- A core with a format word and ring 0: two slots of 64 KiB from 0. -/
def matrix (w : W64) : State := on0 (fun k =>
  { (((k |> withRing 0 0x000001FFC0010000) |> withTile 0 fp32Shape) |> withTile 1 bf16Shape) |> withTile 3 0x5000037F with
    stream := { k.stream with fmtq := [w] } })

/-- `MatrixWordsComplete`: one format word for each OP, with 1 and 128 rows. -/
theorem witness_matrix : (matrix 0x201).formatReady 1 ∧ (matrix 0x201).slotReady 0 128 (128 * scaleBytes 2) ∧
    clashTide 1 102 232 true ((matrix 0x201).me.occ.filter (fun o => 100 ≤ o.last)) = none ∧
    (matrix 0x201).me.act ≤ 1 ∧ (matrix 0x201).inHandler = false ∧ (matrix 0x2).formatReady 2 ∧
    (matrix 0x223).formatReady 3 ∧ (matrix 0x224).formatReady 4 ∧ (matrix 0x223).slotReady 0 1 0 ∧
    (matrix 0x223).slotReady 0 128 0 ∧ pairs false 2 2 = true ∧ pairs true 2 2 = true ∧
    (vget {} (matrix 0x223).me.planes 0).wt = 2 := by decide +kernel

theorem witness_matrix_tiles : (matrix 0x7).formatReady 7 ∧ (matrix 0x7).me.usable 0 ∧
    ((matrix 0x7).me.tile 0).cols = 128 ∧ drainType ((matrix 0x7).me.tile 0).ty = true ∧
    ((matrix 0x7).me.tile 0).cur + 4 ≤ ((matrix 0x7).me.tile 0).rows ∧ (matrix 0x8).formatReady 8 ∧
    (matrix 0x1005).formatReady 5 ∧ isF ((matrix 0x5).me.tile 0).ty = true ∧ isF ((matrix 0x5).me.tile 1).ty = true ∧
    ((matrix 0x5).me.tile 1).cols % hadPoints 0x3005 = 0 ∧ (matrix 0x6).formatReady 6 ∧
    isK ((matrix 0x6).me.tile 3).ty = true := by decide +kernel

/-- `MatrixOperationsPerform`: the last row of the last accumulator; rows 0 to 127 cleared. -/
theorem witness_matrix_operations : (⟨0, 2, 0, .mAcc false 3 1 127 2 0 0, [], true, false⟩ : Perform).op =
      .mAcc false 3 1 127 2 0 0 ∧ (⟨0, 2, 0, .mClear 3 128, [], false, false⟩ : Perform).op = .mClear 3 128 ∧
    (⟨0, 2, 0, .mDrain 3 127 0 3 fp32Shape 0 true ⟨0, false, 0, 0, 0, 0⟩, [], true, false⟩ : Perform).op ≠ .use ∧ 255 < 256 ∧
    accIndex 3 127 + 127 < accIndex 3 127 + 128 := by decide +kernel

/-- Row 0 of a plane read, with its scales: the bytes of one row of MXFP8 and its eight scales. -/
def rowRead : State := (matrix 0x201).modCore 0 (fun k => { k with
  mbuf := [(0, List.replicate 256 1), (128, List.replicate 8 0x80)] })

/-- `MatrixOperationsPerform`: a plane of one row and of 128, with scales and without; a drain that keeps its row and one
that zeroes it. -/
theorem witness_planes : 1 < 2 ∧ 128 ≤ 128 ∧ scaleBytes tMXFP8 = 8 ∧ scaleBytes 2 = 0 ∧
    1 * 256 ≤ ((rowRead.core 0).bufferedRun 0 16).length ∧ 1 * scaleBytes tMXFP8 ≤ ((rowRead.core 0).buffered (0 + 128)).length ∧
    ((rowRead.core 0).tile 15).a = false ∧ 15 < 16 ∧
    (⟨0, 2, 0, .mPlane 1 tMXFP8 1 0, [], true, false⟩ : Perform).op = .mPlane 1 tMXFP8 1 0 ∧
    (⟨0, 2, 0, .mDrain 0 0 15 0 fp32Shape 0 false ⟨0, false, 0, 0, 0, 0⟩, [], true, false⟩ : Perform).op =
      .mDrain 0 0 15 0 fp32Shape 0 false ⟨0, false, 0, 0, 0, 0⟩ := by
  and_intros <;> decide +kernel

/-! ### Hypotheses met: the T engine -/

/-- Tiles 0 to 3 of 4 rows and 4 columns of FP32, the last row and column in register 1. -/
def square : State := on0 (fun k => ((k |> withTile 0 0x00000303) |> withTile 1 0x00000303) |> withReg 1 0x0303)

/-- `TileWordsComplete`: the last row and column. -/
theorem witness_tile_words :
    square.roomy ∧ shapeOk fp32Shape = true ∧ square.me.usable 0 ∧ square.me.usable 1 ∧ (square.me.tile 0).ty = (square.me.tile 1).ty ∧
    (square.me.tile 0).cols = (square.me.tile 1).cols ∧ (square.me.tile 0).rows = (square.me.tile 1).rows ∧
    (square.me.tile 0).cur < (square.me.tile 0).rows ∧ wbits (square.reg 1) 6 0 < (square.me.tile 0).rows ∧
    wbits (square.reg 1) 14 8 < (square.me.tile 1).rows ∧ wbits (square.reg 1) 6 0 < (square.me.tile 0).cols ∧
    wbits (square.reg 1) 14 8 < (square.me.tile 1).cols ∧ isK (square.me.tile 0).ty = false ∧
    (square.me.tile 0).rows = (square.me.tile 1).cols := by
  and_intros <;> decide +kernel

/-- A heap of 8 blocks from 2 MiB: block 0 a value of FP32 4 × 128 with a count, the others Free. -/
def heap (n : Nat) : State := on0 (fun k =>
  { (k |> withTile 0 fp32Shape) |> withReg 1 0xB000000000050000 |> withReg 2 511 |> withReg 3 3 with
    vheap := 0x80200
    blocks := [(0, { state := .live, head := true, count := n, tag := 5, shape := fp32Shape })] })

/-- `ValueWordsComplete`: counts of 1, 2 and 32766; the last element and row; a free run. -/
theorem witness_values :
    (heap 1).roomy ∧ (heap 1).inHandler = false ∧ (heap 1).inEpilogue = false ∧ (heap 1).me.usable 0 ∧ shapeOk ((heap 1).me.block 0).shape = true ∧
    ((heap 1).me.block 0).count ≤ 1 ∧ 1 < ((heap 2).me.block 0).count ∧ ((heap 32766).me.block 0).count < 32767 ∧
    (heap 1).me.reuse = none ∧ isK (shapeType ((heap 1).me.block 0).shape) = false ∧ ((heap 1).reg 2).toNat < shapeCount ((heap 1).me.block 0).shape ∧
    ((heap 1).me.tile 0).ty = shapeType ((heap 1).me.block 0).shape ∧ ((heap 1).me.tile 0).cols = shapeCols ((heap 1).me.block 0).shape ∧
    ((heap 1).reg 3).toNat < shapeRows ((heap 1).me.block 0).shape := by
  and_intros <;> decide +kernel

/-- `ValueWordsComplete`: the largest count, at which DUP copies, and a free run for the copies. -/
theorem witness_copies : 32767 ≤ ((heap 32767).me.block 0).count ∧ ((heap 32766).me.block 0).count < 32767 ∧
    (heap 2).me.reuse = none ∧ ((heap 32767).me.resolveLive ((heap 32767).reg 1)).toOption = some 0 ∧
    ((heap 32767).me.allocate (((heap 32767).me.block 0).len + 1) fp32Shape).toOption.map Prod.fst = some 1 := by
  and_intros <;> decide +kernel

theorem witness_handles : ((heap 1).me.resolve ((heap 1).reg 1)).toOption = some 0 ∧
    ((heap 2).me.resolveLive ((heap 2).reg 1)).toOption = some 0 ∧
    ((heap 2).me.allocate 1 fp32Shape).toOption.map Prod.fst = some 1 ∧
    ((heap 2).me.produce 1 fp32Shape 100).toOption.map Prod.fst = some 1 := by decide +kernel

/-! ### Hypotheses met: the L and W engines -/

/-- 2 MiB of owned memory from 0, and 2 MiB of shared memory after it. -/
def owned : TlbEntry := ⟨1, 0, 2097152, 0, .owned true, 0, 0, 0, 0, false, 0⟩
def shared : TlbEntry := ⟨2, 2097152, 2097152, 0, .shared, 0, 0, 2097152, 0, false, 0⟩

/-- A core with those translations and the heap of `heap`; tiles 0 FP32, 1 BF16 and 2 FP32 of 4 × 32; registers 1 a
handle, 2 a global address, 3 a scratchpad pointer, 4 a cohort pointer, 5 a shared address, 6 a table base. -/
def reaching : State := on0 (fun k =>
  { ((((((((k |> withTile 0 fp32Shape) |> withTile 1 0x20001F7F) |> withTile 2 0x0000031F) |> withReg 1 0xB000000000050000) |>
      withReg 2 64) |> withReg 3 0x90000000003FFFC0) |> withReg 4 0xA0000000007FFFC0) |> withReg 5 0x200000) with
    tlb := [owned, shared]
    vheap := 0x80200
    blocks := [(0, { state := .live, head := true, count := 1, tag := 5, shape := fp32Shape })] })

/-- `LoadWordsComplete`: the last bytes of scratchpad and cohort memory, and every window of a pointer. -/
theorem witness_loads :
    reaching.roomy ∧ reaching.me.fits 1 (2 ^ 22 - 8) 8 false ∧ reaching.me.fits 2 (2 ^ 23 - 8) 8 false ∧ reaching.me.fits 0 64 8 false ∧
    reaching.mapped 64 .load owned ∧ (deref reaching.me (reaching.reg 2) .all (fun a => aligned a 8)).toOption = some (.global 64) ∧
    (deref reaching.me (reaching.reg 3) .all (fun a => aligned a 8)).toOption = some (.scratch (2 ^ 22 - 64)) ∧
    (deref reaching.me (reaching.reg 4) .all (fun a => aligned a 8)).toOption = some (.cohort (2 ^ 23 - 64)) ∧
    (deref reaching.me (reaching.reg 1) .all (fun a => aligned a 8)).toOption = some (.value 5 0) ∧
    reaching.me.tagClash (2 ^ 22 - 64) 8 = none ∧ (reaching.me.resolve (reaching.reg 1)).toOption = some 0 := by
  and_intros <;> decide +kernel

theorem witness_tile_loads :
    reaching.me.usable 0 ∧ reaching.me.fits 1 (2 ^ 22 - 2048) (64 * lineCount (imageBytes fp32Shape)) false ∧
    reaching.me.fits 0 64 2048 false ∧ reaching.mapped 64 .load owned ∧ (reaching.me.tile 0).ty = tFP32 ∧ (reaching.me.tile 0).cols = 128 ∧
    (reaching.me.tile 0).cur % 2 = 0 ∧ (reaching.me.tile 0).cur + 1 < (reaching.me.tile 0).rows ∧ reaching.me.fits 1 (2 ^ 22 - 576) 576 false ∧
    isK (reaching.me.tile 0).ty = false ∧ reaching.me.fits 1 0 512 false ∧ reaching.me.usable 1 ∧ (reaching.me.tile 1).ty = tBF16 ∧
    (reaching.me.tile 1).rows % 32 = 0 ∧ reaching.me.fits 1 0 (ldtrBytes (reaching.me.tile 1).shape) false := by
  and_intros <;> decide +kernel

/-- `GatherAndValueLoadsComplete`: rows of 128 bytes, a table and a list at 0, and a value of 2 KiB. -/
theorem witness_gathers :
    reaching.rowsReady 2 1 (reaching.reg 0) (reaching.reg 0) false ∧ reaching.rowsReady 2 0 (reaching.reg 0) (reaching.reg 0) false ∧
    reaching.mappedAll (reaching.me.rowAddresses (reaching.reg 0) 0 4 128) .load [owned, owned, owned, owned] ∧
    reaching.inHandler = false ∧ reaching.inEpilogue = false ∧ shapeFits 32768 fp32Shape = true ∧
    (reaching.me.produce 1 fp32Shape reaching.tide).toOption.map Prod.fst = some 1 ∧ reaching.me.fits 1 0 2048 false ∧
    reaching.me.fits 0 0 2048 false ∧ reaching.mapped 0 .load owned := by
  and_intros <;> decide +kernel

/-- `StoreWordsComplete`: the last bytes of each space, a value, an image and its BF16 form. -/
theorem witness_stores :
    reaching.roomy ∧ reaching.me.fits 1 (2 ^ 22 - 8) 8 true ∧ reaching.me.fits 2 (2 ^ 23 - 8) 8 true ∧ reaching.me.fits 0 64 8 true ∧
    reaching.mapped 64 .store owned ∧ (reaching.me.storeTarget (reaching.reg 3) 8).toOption = some (.scratch (2 ^ 22 - 64)) ∧
    (reaching.me.storeTarget (reaching.reg 4) 8).toOption = some (.cohort (2 ^ 23 - 64)) ∧
    (reaching.me.storeTarget (reaching.reg 2) 8).toOption = some (.global 64) ∧ reaching.me.usable 2 ∧ (reaching.me.tile 2).ty = tFP32 ∧
    reaching.me.fits 1 0 ((reaching.me.tile 2).narrowed (reaching.me.rounding 5)).1.length true ∧
    reaching.me.fits 0 64 ((reaching.me.tile 2).image).length true := by
  and_intros <;> decide +kernel

theorem witness_scatters :
    reaching.rowsReady 2 1 (reaching.reg 0) (reaching.reg 0) true ∧ reaching.rowsReady 2 0 (reaching.reg 0) (reaching.reg 0) true ∧
    reaching.mappedAll (reaching.me.rowAddresses (reaching.reg 0) 0 4 128) .store [owned, owned, owned, owned] ∧
    (reaching.me.resolve (reaching.reg 1)).toOption = some 0 ∧ reaching.me.fits 0 0 (imageLines (reaching.me.block 0).shape) true ∧
    reaching.mapped 0 .store owned := by
  and_intros <;> decide +kernel

/-- A partition with all of device memory, of which the last page row is the KV region, and KV segment 0 with page 126 of
bank 0; registers 1 a scratchpad pointer, 3 and 4 arguments; tile 0 of 2048 elements. -/
def paged : State :=
  { on0 (fun k => { ((((k |> withTile 0 0x00000F7F) |> withReg 1 0x9000000000000000) |> withReg 3 255) |> withReg 4 126) with
      kvseg := vset k.kvseg 0 { desc := 0x8000000000000000, entries := [0x8000007E00000000] } }) with
    kvp := 1
    parts := vset State.reset.parts 0 { rng := vset (Vector.replicate 16 0) 0 0x3FFFF0000001 } }

/-- An address in another package, and a station to reach it. -/
def abroad : State :=
  { on0 (fun k => { k with tlb := [⟨3, 0, 65536, 1, .shared, 0, 5, 0, 0, false, 0⟩] }) with stationUp := 0xFFFF }

/-- `NearWordsComplete`: reductions at the start of shared memory and abroad; a token, a page and arguments at the ends of
their ranges; a tile of 2048 elements; group 0. -/
theorem witness_near :
    (reaching.preemptible = true → reaching.me.epi.active = true) ∧ 0x200000 + 4 ≤ 2 ^ 57 ∧ 0x200000 % 4 = 0 ∧
    reaching.mapped 0x200000 .reduce shared ∧ shared.target 0x200000 = .device 0x200000 ∧
    abroad.mapped 0 .reduce ⟨3, 0, 65536, 1, .shared, 0, 5, 0, 0, false, 0⟩ ∧
    (⟨3, 0, 65536, 1, .shared, 0, 5, 0, 0, false, 0⟩ : TlbEntry).target 0 = .pod 0 5 0 ∧
    reduceType 0 (reaching.me.tile 0).ty = true ∧ 0x200000 % 2 ^ 16 + 4 * 128 ≤ 2 ^ 16 ∧ shared.va ≤ 0x200000 := by
  and_intros <;> decide +kernel

theorem witness_pages :
    (paged.me.ownRegion (paged.reg 1) 512).toOption = some 0 ∧ wbits (paged.reg 2) 31 24 = 0 ∧
    (paged.selected (paged.reg 2)).toOption = some (126, 0) ∧ (paged.reg 3).toNat < 256 ∧
    (paged.pageCheck (paged.reg 4).toNat).1 = true ∧ (paged.reg 2).toNat = 0 ∧ wbits (paged.reg 2) 63 26 = 0 ∧
    paged.me.usable 0 ∧ (paged.me.tile 0).ty = tFP32 ∧ (paged.me.tile 0).rows * (paged.me.tile 0).cols = 2048 ∧
    wbits (paged.reg 2) 23 16 = 0 ∧ paged.roomy := by and_intros <;> decide +kernel

/-! ### Hypotheses met: the Y and X engines -/

/-- `AtomicWordsComplete`, `GateAndFenceWordsComplete`: each window of a pointer, relaxed and released. -/
theorem witness_atomics :
    reaching.quiet 4 3 ∧ reaching.quiet 0 0 ∧ (reaching.me.storeTarget (reaching.reg 3) 8).toOption = some (.scratch (2 ^ 22 - 64)) ∧
    (reaching.me.lockTarget (reaching.reg 4) 16).toOption = some (.cohort (2 ^ 23 - 64)) ∧
    (reaching.me.lockTarget (reaching.reg 2) 16).toOption = some (.global 64) ∧ reaching.mapped 64 .atomic owned ∧ reaching.gatePlace ∧
    reaching.me.tagClash (2 ^ 22 - 64) 8 = none := by
  and_intros <;> decide +kernel

/-- A gang of cores 0 and 1 of partition 0 that runs task 7; ring 0 with a position reserved, and ring 1 with one
consumed; registers 1 the set of core 0, 2 no condition, 3 core 1, 4 a scratchpad pointer. -/
def gang : State :=
  { on0 (fun k => { ((((((k |> withTile 0 fp32Shape) |> withReg 1 0x10000) |> withReg 2 0x100000000) |> withReg 3 0x101) |>
      withReg 4 0x9000000000000000) |> withReg 5 0x102) with
      task := some 7
      mode := .running
      rings := vset (vset k.rings 0 { cfg := 0x000001FFC0010000, rsv := 1 }) 1
        { cfg := 0x000001FFC0010000, rsv := 1, pub := 1, con := 1 } }) with
    parts := vset State.reset.parts 0 { pcoh := 1, state := .running, pvf := 1 }
    tasks := [(7, { record := [0, 0, 0, 0x10000000000], vf := 1, part := 0, state := .running, cores := [0, 1] })] }

/-- A request that no acknowledgement has reached. -/
def waiting : State := gang.modCore 0 (fun k => { k with near := [{ id := 0, task := some 7, issued := 0 }] })

theorem witness_gates :
    gang.gatePlace ∧ waiting.me.nearPending = true ∧ gang.me.nearPending = false ∧ gang.quiet 4 2 ∧ gang.reg 0 = 0 ∧
    0 < gang.gangSize ∧ gang.me.gidx < gang.gangSize ∧ wbit (gang.reg 1) 16 = true ∧ wbits (gang.reg 1) 7 0 ≤ gang.me.gidx ∧
    gang.me.gidx ≤ wbits (gang.reg 1) 15 8 ∧ wbits (gang.reg 1) 15 8 < gang.gangSize ∧ wbit (gang.reg 2) 32 = true ∧
    reaches (gang.me.flag 31) ((gang.reg 0).setWidth 32) = true ∧ gang.me.owed 31 = 0 ∧ gang.inEpilogue = false ∧
    (gang.me.ring 1).enabled = true ∧ (gang.me.ring 1).mread = 0 := by
  and_intros <;> decide +kernel

/-- `SignalRingSpawnSendComplete`: a signal to the core itself, into its gang and out of it; ring positions; a record;
a route of one hop. -/
theorem witness_signals :
    gang.roomy ∧ wbit (gang.reg 0) 8 = false ∧ wbit (gang.reg 3) 8 = true ∧ gang.physical 0 (wbits (gang.reg 3) 7 0) = some 1 ∧
    gang.myTask.cores.contains 1 = true ∧ gang.physical 0 (wbits (gang.reg 5) 7 0) = some 2 ∧
    gang.myTask.cores.contains 2 = false ∧ within 0 (gang.me.ring 0).pub (gang.me.ring 0).rsv = true ∧
    within 0 (gang.me.ring 1).rel (gang.me.ring 1).con = true ∧ (gang.me.ownRegion (gang.reg 4) 64).toOption = some 0 ∧
    gang.me.outstanding + 1 ≤ 4096 ∧ gang.me.usable 0 ∧ (routeFrom 0 1 [3, 0, 0, 0, 0, 0, 0]).left = false ∧
    (routeFrom 0 1 [3, 0, 0, 0, 0, 0, 0]).stop = 1 := by
  and_intros <;> decide +kernel

/-- Register 1: the largest private area that fits, 2: no vector, 3: a heap of 1024 blocks from 0, 4: a ring of one slot
of 64 bytes at the end of scratchpad, 5: a shape with the cursor on its last row. -/
def special : State := on0 (fun k => ((((k |> withReg 1 0x01000300) |> withReg 2 0x80000000) |> withReg 3 0x04000000) |>
  withReg 4 0x0000000000010FFFF) |> withReg 5 0x000003000000037F)

/-- `StatusWordsComplete`: accepted values at the ends of their ranges. -/
theorem witness_status :
    special.roomy ∧ ¬(wbit (special.reg 2) 31 = true ∧ wbits (special.reg 2) 21 17 = 31) ∧ wbits (special.reg 1) 24 16 ≤ 256 ∧
    (wbits (special.reg 1) 9 0 + wbits (special.reg 1) 24 16) * 4096 ≤ 2 ^ 22 ∧ (special.me.vheapCheck (special.reg 3)).1 = true ∧
    (special.me.ringCheck 15 (special.reg 4)).1 = true ∧ shapeOk (tshapeWord (special.reg 5)) = true ∧
    wbits (special.reg 5) 46 40 < shapeRows (tshapeWord (special.reg 5)) ∧ csrMask 1 = 0 ∧ csrMask 0x7FFF = 0 ∧
    special.me.mode ≠ .handler ∧ special.faultFrozen 0 = false ∧ special.me.ownFault = false := by
  and_intros <;> decide +kernel

/-- A gang in its handlers: core 0 runs its own, and core 1 has faulted too or not. -/
def handlers (two : Bool) : State :=
  let stop : Stop := { kind := .fault, f := 90, plane := 98, allFrozen := 98, handlers := [0] }
  let s := { gang with
    tasks := [(7, { record := [], vf := 1, part := 0, state := .running, cores := [0, 1], stop := some stop })] }
  (s.modCore 0 (fun k => { k with mode := .handler, saved := some {} })).modCore 1 (fun k =>
    { k with task := some 7, fcause := if two then fcauseOf true true 0 1 else 0 })

theorem witness_reth : (handlers true).inHandler = true ∧ (handlers true).me.task = some 7 ∧
    ((handlers true).taskOf 0).bind (fun g => g.stop.map (fun st => (handlers true).handlersLeft g st)) = some (some 1) ∧
    ((handlers false).taskOf 0).bind (fun g => g.stop.map (fun st => (handlers false).handlersLeft g st)) = some none := by
  decide +kernel

/-- A core with words in scratchpad, the translations of `reaching`, ring 0 of two slots, and register 1 naming the words;
its task may write a checkpoint to the owned page from 64 KiB on. -/
def holding (ws : List W64) : State :=
  { on0 (fun k => { (k |> withRing 0 0x000001FFC0010000) |> withReg 1 0x9000000000020000 with
      scratch := Memory.write [] 0x20000 (bytesOfWords ws)
      tlb := [owned, shared]
      task := some 7
      chains := vset k.chains 0 { lnk := true, next := 128 }
      kvseg := vset k.kvseg 0 { desc := 0x8000000000000000, entries := [0x8000007E00000000] } }) with
    kvp := 1
    parts := vset State.reset.parts 0 { rng := vset (Vector.replicate 16 0) 0 0x3FFFF0000001 }
    tasks := [(7, { record := [], vf := 1, part := 0, state := .running, cores := [0], pages := [owned]
                    header := [0, 0x10000, 0x22] })] }

/-- The sixteen words of a copy of 128 bytes of scratchpad; the count of words that an access reads. -/
def copyWords : List W64 := [0x0100000000000000, 0x9000000000000000, 0x9000000000001000, 0x20]
def wordsAt (s : State) (n : Nat) : List W64 := words64 (n / 8) (s.me.scratch.read 0x20000 n)

/-- `CommandWordsComplete`: a copy, a linked chain slot, checkpoints with and without values, a KV image. -/
theorem witness_commands :
    (holding copyWords).roomy ∧ ((holding copyWords).me.ownRegion ((holding copyWords).reg 1) 128).toOption = some 0x20000 ∧
    (∀ x ∈ commandChecks false (wordsAt (holding copyWords) 128), x.1 = true) ∧
    ((holding copyWords).me.sourceValue (wordsAt (holding copyWords) 128)).toOption = some none ∧
    (holding copyWords).me.outstanding + 1 ≤ 4096 ∧ commandBases (wordsAt (holding copyWords) 128) = [] ∧ (holding copyWords).inEpilogue = false ∧
    (deref (holding copyWords).me ((holding copyWords).reg 1) .ownOrGlobal (fun x => x % 128 == 0)).toOption = some (.scratch 0x20000) ∧
    (holding copyWords).translate 0 128 .command = .hit owned ∧ ((holding copyWords).me.chain 0).lnk = true ∧ ((holding copyWords).me.chain 0).run = false ∧ (holding copyWords).gatePlace ∧
    (holding copyWords).reg 1 ≠ 0 ∧ (holding copyWords).myTask.np = false ∧ (holding copyWords).myTask.ckaddr ≠ 0 ∧ (holding copyWords).me.epi.active = false := by
  and_intros <;> decide +kernel

theorem witness_checkpoints :
    (∀ x ∈ (holding []).regionChecks [], x.1 = true) ∧ ((holding []).myTask.heldWrite (((holding []).me.regionParts []).flatMap (fun x =>
      pageCuts ((holding []).myTask.ckaddr + x.1) x.2))).toOption.isSome = true ∧
    ((holding []).me.ownRegion ((holding []).reg 1) 64).toOption = some 0x20000 ∧
    (∀ x ∈ carriedChecks (wordsAt (holding []) 64), x.1 = true) ∧ carried (wordsAt (holding []) 64) = [] ∧
    ((holding []).me.ownRegion ((holding []).reg 1) 2112).toOption = some 0x20000 ∧
    wbits ((words64 8 ((holding []).me.scratch.read 0x20000 2048)).getD 0 0) 63 40 = 0 ∧
    (words64 8 ((holding []).me.scratch.read 0x20000 2048)).getD 7 0 = 0 ∧ wbit (vget {} (holding []).me.kvseg 0).desc 62 = false := by
  and_intros <;> decide +kernel

/-- `ServiceWordsComplete`: a query of one token in one page, a group of two tiles over owned and shared memory, and an
optimiser step of one element. -/
theorem witness_query :
    ((holding [0, 1]).me.ownRegion ((holding [0, 1]).reg 1) 320).toOption = some 0x20000 ∧
    (∀ x ∈ queryChecks false (wordsAt (holding [0, 1]) 320), x.1 = true) ∧
    queryPages false (wordsAt (holding [0, 1]) 320) = [0] ∧ (∀ x ∈ (holding [0, 1]).me.queryRingChecks 0 1, x.1 = true) ∧
    ((holding [0, 1]).kvLookups 0 0 [0]).toOption = some [(126, 0)] := by
  and_intros <;> decide +kernel

def openWords : List W64 := [0x3F80000000000100, 0x200000, 0]

theorem witness_open :
    (∀ x ∈ bwoChecks (wordsAt (holding openWords) 64), x.1 = true) ∧
    wbits ((wordsAt (holding openWords) 64).getD 1 0) 63 57 = 0 ∧ (holding openWords).translate 0 0x200000 .apply = .hit shared ∧
    (holding openWords).translate 0 0 .store = .hit owned ∧ 0x200000 + (1 + 1) * 8192 ≤ shared.va + shared.size := by
  and_intros <;> decide +kernel

def stepWords : List W64 := [0, 0x200000, 0x200040, 0x200080, 0x2000C0, 0x3F800000, 0, 0, 0, 0, 0]

/-- A task that is not pre-emptible (R56), so that OPTS issues outside an epilogue. -/
def stepping : State :=
  { holding stepWords with
    tasks := [(7, { record := [0, 0, 0, 0x10000000000], vf := 1, part := 0, state := .running, cores := [0] })] }

theorem witness_step :
    stepping.preemptible = false ∧ (stepping.me.ownRegion (stepping.reg 1) 128).toOption = some 0x20000 ∧
    (∀ x ∈ optsChecks (wordsAt stepping 128), x.1 = true) ∧
    (∀ m ∈ [1, 2, 3, 4, 10], wbits ((wordsAt stepping 128).getD m 0) 63 57 = 0) ∧
    [shared, shared, shared, shared].map Trans.hit =
      [1, 2, 3, 4].map (fun m => stepping.translate 0 ((wordsAt stepping 128).getD m 0).toNat .apply) ∧
    (∀ x ∈ [shared, shared, shared, shared].zip [1, 2, 3, 4], ((wordsAt stepping 128).getD x.2 0).toNat +
      4 * (wbits ((wordsAt stepping 128).getD 0 0) 18 0 + 1) ≤ x.1.va + x.1.size) ∧
    stepping.translate 0 ((wordsAt stepping 128).getD 10 0).toNat .store = .hit owned := by
  and_intros <;> decide +kernel

/-! ### Hypotheses met: the package -/

/-- A good image, die 0 with its two stacks, every link. -/
def lively : BootEnv := ⟨1, 3, true, 0xFFFF, 0xFF⟩

/-- Recovery wait, with an image of the least and of the greatest length. -/
def recovering (code len : Nat) : State :=
  { base with boot := .recovery, rcvwait := true, rcvcode := code, rcvlen := BitVec.ofNat 32 len }

/-- `BringUpCompletes`; whether an image is good is not the model's to say, and `witness_version` has one that is new
enough. -/
theorem witness_bring_up : bootAlive lively ∧ lively.tideOk = true ∧
    { lively with tideOk := false }.tideOk = false ∧ { lively with diesOk := 0 }.diesOk = 0 ∧
    (recovering 0 4095).rcvlen.toNat < 2 ^ 12 ∧ 2 ^ 26 < (recovering 0 67108865).rcvlen.toNat ∧
    2 ^ 12 ≤ (recovering 0 4096).rcvlen.toNat ∧ (recovering 0 67108864).rcvlen.toNat ≤ 2 ^ 26 ∧
    (recovering 0 4096).boot = .recovery ∧ (1 : W64).getLsbD 0 = true ∧ (recovering 0 4096).rcvcode ≠ 1 ∧
    (recovering 7 67108864).rcvcode ≠ 2 ∧ (recovering 1 4096).rcvcode = 1 ∧ (recovering 2 4096).rcvcode = 2 ∧
    (⟨false, lively⟩ : RecoveryRead).dmaOk = false ∧ (⟨true, lively⟩ : RecoveryRead).dmaOk = true :=
  ⟨by decide, rfl, rfl, rfl, by decide, by decide, by decide, by decide, rfl, rfl, by decide, by decide, rfl, rfl, rfl, rfl⟩

/-- An image of the last version is new enough whatever the fused minimum, and one of version 0 is or is not (R23). -/
theorem witness_version : versionOk (bytesOfNat 4 0xFFFFFFFF) = true ∧ (versionOk [] = true ∨ versionOk [] = false) := by
  refine ⟨?_, by cases versionOk [] <;> simp⟩
  have h : natOfBytes ((bytesOfNat 4 0xFFFFFFFF).take 4) = 4294967295 := by decide
  have := Config.fusedMinimum.isLt
  simp only [versionOk, imageVersion, h, decide_eq_true_eq]
  omega

/-- `PowerAndCoolingComplete`: PLIMIT and the temperatures at their bounds, and a running gang. -/
theorem witness_power : gang.boot = .ready ∧ 600 ≤ wbits 600 15 0 ∧ wbits 2000 15 0 ≤ 2000 ∧ wbits 599 15 0 < 600 ∧
    2000 < wbits 2001 15 0 ∧ (gang.task? 7).map Task.state = some .running ∧
    (gang.task? 7).bind (fun k => k.cores.head?) = some 0 ∧ (gang.core 0).task = some 7 ∧
    (gang.task? 7).map (fun k => k.cores.any (fun c => (1#4).getLsbD (dieOf c))) = some true := by decide +kernel

/-- Page tables of 2 MiB pages: owned memory at 2 MiB for address 0, shared memory at 4 MiB, and package 3 (R167 to R169). -/
def tables : Memory :=
  Memory.write (Memory.write (Memory.write (Memory.write [] 0 (bytesOfNat 8 0x8000000000000010)) 4096
    (bytesOfNat 8 0x8000000000000020)) 8192 (bytesOfNat 8 0x8000000000000030)) 12288
    (bytesOfWords [0x8600000000000020, 0x8A00000000000040, 0xA600003000000000])

/-- A running partition 0 with cohort 0, all of device memory and function 1; its queue 3 is enabled, with one record of 16. -/
def world (record : List W64) (image : Memory) : State :=
  { base with
    diepres := 0xF
    stationUp := 0x8
    device := image
    parts := vset State.reset.parts 0
      { pcoh := 1, pvf := 1, state := .running, rng := vset (Vector.replicate 16 0) 0 0x3FFFF0000003 }
    queues := [(queueKey 1 3, { en := true, log2n := 4, tail := 1 })]
    host := Memory.write [] 0 (bytesOfWords record) }

def nothing : Graph := { record := [], vf := 1, queue := 3, part := 0, die := 0, nodes := [] }

/-- A gang on dies 0 and 1 with a request to package 3 over station 3, a copy over that station, a command and a copy
over Ethernet, and flits of each kind. -/
def busy : State :=
  { (world [] tables).modCore 0 (fun k => { k with
      task := some 7
      reqs := [{ id := 20, issued := 90, eng := 4, op := .load 1 8 false, pieces := [⟨0, .pod 0 3 0, 8⟩] }]
      cmds := [{ id := 21, words := [0x0100000000000000, 0, 64], state := .moving 90 none
                 pages := [⟨9, 0, 65536, 3, .owned true, 0, 0, 0, 0, false, 0⟩] }] }) with
    subject := 40
    tasks := [(7, { record := [], vf := 1, part := 0, state := .running, cores := [0, 64] })]
    graphs := [(5, nothing)]
    copies := [{ id := 30, graph := 5, node := 0, src := 0, dst := 0x400000, len := 1, start := 1 },
      { id := 31, graph := 5, node := 0, src := 0, dst := 0, len := 1, start := 1, ether := true }]
    flits := [⟨40, 100, some 7, [(1, 0)], .signal 1 31 0 none⟩, ⟨41, 100, some 7, [], .signal 1 31 0 none⟩,
      ⟨42, 100, some 7, [], .barrier 0 1⟩, ⟨43, 100, some 7, [], .tile 50 0 1 0 2 [1, 2]⟩,
      ⟨44, 100, some 7, [], .tile 50 0 1 1 2 []⟩] }

/-- `LinkStepsComplete`. -/
theorem witness_links : busy.boot = .ready ∧ (busy.task? 7).map (fun k => busy.usesEdge 7 k 0) = some true ∧
    busy.stationUp.getLsbD 3 = true ∧ busy.stationUp.getLsbD 0 = false ∧
    busy.copies.map (busy.copyOn 3) = [true, false] ∧ busy.onStation 3 0 = true ∧ busy.commandsOn 3 0 = [] ∧
    (busy.transferCommand 21).map Prod.fst = some 0 ∧
    (busy.transferCommand 21).map (fun x => (x.2.isMoving, busy.overEthernet 0 x.2)) = some (true, true) ∧
    busy.transferCommand 31 = none ∧ (busy.copies.find? (fun x => x.id == 31)).map CopyJob.ether = some true ∧
    (busy.flits.find? (fun x => x.id == busy.subject)).map Flit.legs = some [(1, 0)] ∧ busy.linkUse 1 100 < 2 ∧
    (busy.flits.find? (fun x => x.id == 43)).map Flit.legs = some [] := by decide +kernel

/-- Two copies over Ethernet by core 0, the second posted later. -/
def twoTransfers : State :=
  busy.modCore 0 (fun k => { k with cmds := k.cmds.flatMap (fun x => [x, { x with id := 22, state := .moving 91 none }]) })

/-- `LinkStepsComplete`: a transfer that no other precedes, and one that waits if its connection is in ordered mode. -/
theorem witness_ordered : twoTransfers.transferWaits 21 = false ∧
    (twoTransfers.transferWaits 22 = true ↔ Config.ordered 0 = true) := by
  have h : twoTransfers.transfers = [(21, [0, 0]), (22, [0, 0]), (31, [])] := by decide +kernel
  simp [State.transferWaits, h]

/-- A command over Ethernet whose record has its place in a bank that scans, and one whose record has none. -/
theorem witness_failed_transfer :
    (busy.transferCommand 21).map (fun x => busy.recordBusy 0 x.2) = some false ∧
    (let s := busy.modCore 0 (fun k => { k with
       bankUse := [(0, 0)]
       cmds := k.cmds.map (fun x => { x with words := x.words ++ List.replicate 6 0 ++ [0x9000000000000020] }) })
     (s.transferCommand 21).map (fun x => s.recordBusy 0 x.2)) = some true := by decide +kernel

/-- Package 5's partition 0 bound to partition 0; records that wait for package 3. -/
def bound : State :=
  { world [] tables with
    bindings := [(160, 0x80)]
    gathers := [{ core := 0, home := 3, records := [nullRecord], ids := [9] }] }

/-- `InboxStepsComplete`: the sizes and the binding values at their bounds; an access at the start of the range, and
the three ways in which a record comes out. -/
theorem witness_inbox : bound.boot = .ready ∧ (List.replicate 64 (0 : Byte)).length = 64 ∧
    (0xFFFFFFFF0040#48).toNat % 64 = 0 ∧ (∀ m ∈ bound.msgs, m.remote ≠ some bound.fresh) ∧
    bound.gathers.find? (fun x => x.core == 0 && x.home == 3) ≠ none ∧ bound.station (dieOf 0) 3 = some 3 ∧
    (128 ≤ (0x80 : Byte).toNat ∧ (0x9F : Byte).toNat < 160) ∧ ¬((0xA0 : Byte) = 0 ∨ (0xA0 : Byte).toNat < 160) ∧
    (bound.boundTo 5 0).bind (fun p => bound.remoteAt p 0 8) = some 0 ∧
    (bound.boundTo 6 0).bind (fun p => bound.remoteAt p 0 8) = none ∧ bound.badAt 0 8 = none ∧
    { bound with poison := [0] }.badAt 0 8 ≠ none ∧ (rmwOf (.cas 0 1)).isSome = true ∧
    ((Rmw.cas 0 1).apply (bytesOfNat 8 0)).new.isSome = true ∧ ((Rmw.cas 0 1).apply (bytesOfNat 8 5)).new = none ∧
    bound.incoming 0x1000000000000000 0x0005000000000000 = .accept 0 0 1 0 ∧
    bound.incoming 0xF000000000000000 0 = .null ∧ bound.incoming 0x8000000000000000 0 = .discard := by decide +kernel

/-- `InboxStepsComplete`: a record that nothing precedes, and one that an older request to the same package precedes. -/
theorem witness_first_records :
    (bound.gathers.map (fun g => (bound.firstRecords 3 g, ((bound.modCore 0 (fun k => { k with
      reqs := [{ id := 8, issued := 90, eng := 4, op := .load 1 8 false, pieces := [⟨0, .pod 0 3 0, 8⟩] }] })).firstRecords 3 g))))
      = [(1, 0)] := by decide +kernel

/-- `PartitionStepsComplete`: partition 0 stopped with its cohort and range, or running, or resetting with a task; and a
drained one. -/
def inState (x : PartState) : State := (world [] []).modPart 0 (fun p => { p with state := x })

theorem witness_partition : (inState .stopped).boot = .ready ∧ 31 < 32 ∧ ((inState .stopped).part 0).state = .stopped ∧
    ((inState .running).part 0).sameBut { (inState .running).part 0 with wdog := 5 } = true ∧
    (∀ q, q < 32 → q ≠ 0 → ((inState .stopped).part q).clashes { (inState .stopped).part 0 with pcoh := 3 } = false) ∧
    ((inState .stopped).part 0).pcoh ≠ 0 ∧ ((inState .stopped).part 0).ranges ≠ [] ∧
    ((inState .stopped).part 1).ranges = [] ∧ ((inState .running).part 0).state = .running ∧
    ((inState .resetting).part 0).state = .resetting ∧ (inState .resetting).partitionDrained 0 = true ∧
    busy.partitionDrained 0 = false ∧ (∀ q, q < 32 → ((inState .stopped).part q).state = .stopped) ∧
    (∃ q, q < 32 ∧ ((inState .running).part q).state ≠ .stopped) := by
  and_intros <;> decide +kernel

/-- `FunctionResetsComplete`: a function whose reset nothing keeps up, an event ring with room, a bank with a failing row. -/
def eventful : State :=
  { (world [] []).setFunc 1 { eqen := true, eqlog := 4 } with
    route := true
    banks := [(0, { offline := true, spares := 14 })]
    poison := [0] }

theorem witness_functions : eventful.boot = .ready ∧ (eventful.func 1).flr = false ∧
    (eventful.setFunc 1 { flr := true }).flrOver 1 = true ∧ base.route = false ∧ eventful.route = true ∧
    (eventful.part 0).pcoh.getLsbD (cohortOf 0) = true ∧ (eventful.part 0).functions = [1] ∧
    (eventful.func 1).eventRoom = true ∧ (eventful.bank 0).offline = true ∧ (2032 ≤ 2032 ∧ 2046 < 2047) ∧
    (eventful.bank 0).spares + [2032].length ≤ 15 ∧ (∀ d ∈ eventful.agenda, d.ev ≠ .bankRemapComplete 0 [] []) := by
  and_intros <;> decide +kernel

/-- Function 1 of partition 0 with a mailbox command on key slot n, owned by partition 0 where n is 2047. -/
def mailing (code n : Nat) : State :=
  { (world [] []).setFunc 1 { mbjob := some ⟨code, 0, Memory.write [] 0 (bytesOfNat 2 n)⟩, nonce := some [1] } with
    owners := [(2047, 0x80)] }

/-- `MailboxStepsComplete`: each command; slot 0, one of another owner, and the last slot; a command that may start. -/
theorem witness_mailbox : (mailing 1 0).boot = .ready ∧ ((mailing 1 0).func 1).mbjob.map MailJob.code = some 1 ∧
    ((mailing 4 0).func 1).mbjob.map MailJob.code = some 4 ∧ ((mailing 3 2047).func 1).mbjob.map MailJob.code = some 3 ∧
    ((mailing 2 2047).func 1).mbjob.map (fun j => natOfBytes (j.params.read 0 2)) = some 2047 ∧
    ((mailing 2 5).func 1).mbjob.map (fun j => natOfBytes (j.params.read 0 2)) = some 5 ∧
    (Sparse.get 0 (mailing 2 2047).owners 2047).toNat = 128 + 0 ∧ (Sparse.get 0 (mailing 2 5).owners 5).toNat ≠ 128 + 0 ∧
    ((mailing 2 2047).func 1).nonce = some [1] ∧ (3 % 8 ≠ 0 ∧ 31 < 32) ∧ ((mailing 1 0).func 1).mbbusy = false ∧
    (mailing 1 0).partOfVf 2 = none ∧ (mailing 1 0).partOfVf 1 = some 0 ∧ ¬(1 ≤ wbits 5 7 0 ∧ wbits 5 7 0 ≤ 4) ∧
    ((Instr.attest 1, (1 : W64)) ∈ [(Instr.attest 1, 1), (.loadkey 1, 2), (.clearkey 1, 3), (.getcert 1, 4)]) ∧
    (0 : Byte) ≠ Sparse.get 0 (mailing 2 2047).owners 2047 := by decide +kernel

/-- The point that a key is wrapped for lies on the curve or not (R69). -/
theorem witness_curve (ps : Memory) : Config.onCurve (ps.read 0x40 96) = true ∨ Config.onCurve (ps.read 0x40 96) = false := by
  cases Config.onCurve (ps.read 0x40 96) <;> simp

/-- Function 1 with a walk reported under event 9, an invalidation, and a parked task of queue 3. -/
def queued : State :=
  { (((world [] []).setFunc 1 { eqen := true, eqlog := 4, xbusy := true }).modCore 0 (fun k => { k with
      task := some 7, walk := some (4, 0, .load, some 9) })) with
    tasks := [(7, { record := [], vf := 1, queue := 3, part := 0, state := .parked })] }

/-- `QueueRegistersComplete`: QCFG, QTAIL, OVSIZE and EQSIZE at their bounds, a walk that the host answers, the ends of an
invalidation, and the packed range of BAR2 from its first to its last byte. -/
theorem witness_queues :
    queued.boot = .ready ∧ (queued.wq 1 3).en = true ∧ (0x84000000 : W64).getLsbD 30 = (queued.wq 1 3).loc ∧
    wbits 0x84000000 27 24 = (queued.wq 1 3).log2n ∧ wbits 0x85000000 27 24 ≠ (queued.wq 1 3).log2n ∧ (queued.func 1).eventRoom = true ∧
    ((16 : W32) - (queued.wq 1 3).tail).toNat < 2 ^ 31 ∧ ((16 : W32) - (queued.wq 1 3).head).toNat ≤ 2 ^ (queued.wq 1 3).log2n ∧
    (queued.task? 7).map (fun k => (k.awaitsRestart, k.node)) = some (true, none) ∧
    2 ^ (queued.wq 1 3).log2n < ((17 : W32) - (queued.wq 1 3).head).toNat ∧ 2 ^ 31 ≤ ((0 : W32) - (queued.wq 1 3).tail).toNat ∧
    (queued.wq 1 4).en = false ∧ wbits 0x100000 20 0 ≤ 2 ^ 20 ∧ 2 ^ 20 < wbits 0x100001 20 0 := by
  and_intros <;> decide +kernel

theorem witness_registers :
    wbits 12 3 0 ≤ 12 ∧ 12 < wbits 13 3 0 ∧ (queued.task? 7).map Task.state = some .parked ∧
    (queued.core 0).walk = some (4, 0, .load, some 9) ∧ (queued.taskOf 0).map Task.vf = some 1 ∧ (queued.func 1).xbusy = true ∧
    (world [] []).partOfVf 1 = some 0 ∧ ((world [] []).func 1).xbusy = false ∧ queued.invalidationOver 1 = true ∧
    queued.partOfVf 2 = none ∧ packedAt (queued.part 0).ranges 0 = some (0, 549753716736, true) ∧
    packedAt (queued.part 0).ranges 549753716735 = some (549753716735, 1, true) ∧
    packedAt (queued.part 0).ranges 549753716736 = none ∧ queued.served 549753716735 = true ∧
    (queued.setFunc 1 { xmark := true }).partOfVf 1 = some 0 ∧ (∀ l ∈ linesOf 0 8, queued.badLine l = false) := by
  and_intros <;> decide +kernel

/-! ### Hypotheses met: tasks, graphs and gangs -/

/-- A record of a one-row kernel on one core, its image at address 0; and a graph of one JOIN node at 64 KiB. -/
def kernelRecord : List W64 := [0, 0, 0x1000, 0xFF00000000000000, 0, 1, 0, 0]
def graphRecord : List W64 := [0x10000, 0, 0x1000, 0xFF00000000000000, 0, 1, 0, 0]
def images : Memory :=
  Memory.write (Memory.write tables 0x200000 (bytesOfWords [0x0101000204000000])) 0x210000
    (bytesOfWords ([0x0201000000010000, 0, 0, 0, 0, 0, 0, 0, 0x0700FFFF00000000]))

/-- What the head of queue 3 of function 1 comes to. -/
def comes (r : List W64) : Taken :=
  let s := world r images
  let h := s.headTask 0 1 3
  (h.2.examine 0 h.1).1

/-- `TaskStepsComplete`: a record refused with the last detail that needs no memory, a kernel, a graph, and a faulty one. -/
theorem witness_take : (world kernelRecord images).partOfVf 1 = some 0 ∧ ((world kernelRecord images).wq 1 3).loc = false ∧
    (world kernelRecord images).homeDie 0 = some 0 ∧
    firstDetail ((world [] []).recordChecks 0 [0, 0, 0, 0xFF00000000000001, 0, 1, 0, 0]) = some 0x07 ∧
    (match comes kernelRecord with | .kernel _ => true | _ => false) = true ∧
    (match comes graphRecord with | .graph _ nodes none => nodes.length == 1 | _ => false) = true ∧
    ((world kernelRecord images).headTask 0 1 3).2.takenRoom 0 ((world kernelRecord images).headTask 0 1 3).1
      (comes kernelRecord) = true ∧
    ((world graphRecord images).headTask 0 1 3).2.takenRoom 0 ((world graphRecord images).headTask 0 1 3).1
      (comes graphRecord) = true ∧
    ((world kernelRecord images).headTask 0 1 3).2.takeBusy 0 ((world kernelRecord images).wq 1 3)
      ((world kernelRecord images).headTask 0 1 3).1 (comes kernelRecord) = false ∧
    ((world graphRecord images).headTask 0 1 3).2.takeBusy 0 ((world graphRecord images).wq 1 3)
      ((world graphRecord images).headTask 0 1 3).1 (comes graphRecord) = false := by
  and_intros <;> decide +kernel

/-- A spilled record of queue 3, an answer on its way to register 31 of core 1, and a spawn at its home. -/
def arriving : State :=
  { ((world [] images).setFunc 1 { spills := [(3, 0x300000)] }).modCore 0 (fun k => { k with
      task := some 7
      reqs := [{ id := 20, issued := 90, eng := 6, op := .spawn 31 3 (List.replicate 8 0), pieces := [] }] }) with
    acks := [{ id := 8, core := 1, task := 7, due := 100, msg := 2, reg := 31, status := some 5 }]
    cores := vset (vset State.reset.cores 0 { (State.reset.core 0) with
      task := some 7, reqs := [{ id := 20, issued := 90, eng := 6, op := .spawn 31 3 (List.replicate 8 0), pieces := [] }] })
      1 { (State.reset.core 1) with task := some 7 }
    tasks := [(7, { record := [], vf := 1, part := 0, state := .ending, start := 5, endTide := some 90 })] }

theorem witness_task_steps :
    (arriving.task? 7).map Task.start = some 5 ∧ (arriving.task? 7).bind Task.endTide = some 90 ∧ (arriving.func 1).flr = false ∧
    (arriving.func 1).firstSpill 3 = some 0x300000 ∧ (arriving.wq 1 3).en = true ∧ (arriving.wq 1 3).hasRoom = true ∧
    arriving.dpaOf 0 0x300000 = some 0x300000 ∧ arriving.badAt 0x300000 64 = none ∧ (arriving.core 1).req 8 = none ∧
    (arriving.acks.find? (fun y => y.id == 8)).map Ack.reg = some 31 ∧ (arriving.core 1).task = some 7 ∧
    ((arriving.core 0).req 20).map GReq.op = some (.spawn 31 3 (List.replicate 8 0)) ∧ (arriving.taskOf 0).map Task.vf = some 1 ∧
    arriving.completionBusy 0 0 0x1001 = false ∧ 511 < (512 : W64).toNat ∧ (511 : W64).toNat ≤ 511 ∧ (arriving.wq 1 4).en = false ∧
    ((arriving.setFunc 1 {}).func 1).spills = [] := by
  and_intros <;> decide +kernel

/-- A graph that stands at a node with these words; its address 0 is owned memory, 2 MiB further shared memory. -/
def graphAt (ws : List W64) (waiting : Bool) : State :=
  { world [] tables with graphs := [(5, { nothing with nodes := [ws], waiting := waiting, since := 100 })] }

/-- `GraphStepsComplete`: an address of owned memory, word and double word; a wait that holds and one that times out now;
loops at their first trip, at their last, and at their end. -/
theorem witness_graphs : ((graphAt [] false).graph? 5).map Graph.nowait = some [] ∧
    ((graphAt [] false).walk 0 0 .store 0).toOption.map (fun l => (l.target 0, l.kind.admits .store)) =
      some (.device 0x200000, true) ∧
    ((graphAt [] false).walk 0 0 .command 0).toOption.map (fun l => (l.target 0, l.kind.admits .command)) =
      some (.device 0x200000, true) ∧
    ((graphAt [] false).walk 0 0 .commandStore 65535).toOption.map (fun l => l.kind.admits .commandStore) = some true ∧
    (graphAt [] false).badAt 0x200000 8 = none ∧ waitHolds [0x0400FFFF00000000] 0 = true ∧
    waitHolds [0x0401FFFF00000000] 0 = false ∧
    ((graphAt [0x0400FFFF00000000] true).graph? 5).map Graph.waits = some true ∧
    nodeMode [0x0601FFFF00000000] 0 = true ∧ nodeMode [0x0602FFFF00000000] 1 = true ∧
    nodeMode [0x0600FFFF00000000] 1 = false ∧
    (⟨30, 5, 0, 0, 0x8000, 32768, 1, false, none⟩ : CopyJob).failed = none ∧
    (graphAt [] false).copyBusy { nothing with nodes := [[]] } ⟨30, 5, 0, 0, 0x8000, 32768, 1, false, none⟩ = false ∧
    (graphAt [] false).virtualBusy 0 0 .load 0 4 = false ∧ (graphAt [] false).completionBusy 0 0 0x1001 = false ∧
    0x8000 % 2 ^ 16 + 32768 ≤ 2 ^ 16 := by and_intros <;> decide +kernel

/-- `GraphStepsComplete`: a loop node that has been left and has its count to store, with CNTADDR in a bank that scans or
not, and one whose predicate is still to be read. -/
theorem witness_left_loop :
    (let x : Graph := { nothing with nodes := [[0x0601FFFF00000000, 0, 2, 64]], leaving := some 2 }
     (x.leaving, ((x.words x.at_).getD 3 0).toNat, (graphAt [] false).virtualBusy x.part x.die .store 64 4)) = (some 2, 64, false) ∧
    ((graphAt [0x0601FFFF00000000, 0, 2, 64] false).graph? 5).map Graph.leaving = some none ∧
    (let s := { graphAt [] false with scans := [⟨9, 0, 7, 126, 5, 0, 1, 0, false, false, [], 0, 1, 0, none, 0, .scanning 1 [] [], 0, false⟩] }
     [s.scanningIn 0, s.virtualBusy 0 0 .store 64 4]) = [true, true] := by
  and_intros <;> decide +kernel

/-- Task 7 alone, in a state, with the cores given. -/
def tasked (x : TaskState) (cs : List Nat) : State :=
  { world [] images with tasks := [(7, { record := kernelRecord, vf := 1, part := 0, state := x, cores := cs
                                         pages := [owned], placement := some 36 })] }

/-- A core with a row of task 7 that is loading. -/
def loadingRow : State :=
  (tasked .loading [0]).modCore 0 (fun k => { k with lease := [(0, ⟨7, 0, .loading⟩)], mode := .running })

/-- `SchedulingCompletes`: an admittable task with its deficit, a hold, a row, the start tide, a gang of two cores. -/
theorem witness_scheduling : (tasked .ready []).admittable 7 { record := kernelRecord, vf := 1, part := 0, pages := [owned], placement := some 36 } =
      some [0] ∧ vget 0 ((tasked .ready []).sched 0).cur 0 = 0 ∧ ([0].length : Int) ≤
      ({ (tasked .ready []) with dies := vset base.dies 0 (({} : DieSched).setDef 0 0 1) }.sched 0).def_ 0 0 ∧
    { base with phold := true }.phold = true ∧ { base with thold := true }.thold = true ∧
    (loadingRow.core 0).loadingRow 0 = some (0, ⟨7, 0, .loading⟩) ∧
    (loadingRow.task? 7).map (fun k => (k.cores, loadingRow.heldBusy k (k.rowAddr 0 0) 1024)) = some ([0], false) ∧
    (loadingRow.task? 7).map (fun k => (loadingRow.readHeld 0 k [((loadingRow.task? 7).elim 0 (fun k => k.rowAddr 0 0), 1024)]).1.isSome) = some true ∧
    ((tasked .loading [0]).task? 7).bind (fun k => k.placement.map (· + 64)) = some 100 ∧
    ((tasked .running [0, 1]).task? 7).map Task.cores = some [0, 1] ∧ (loadingRow.core 0).stoppable = true ∧
    ((tasked .stopping [0]).task? 7).map (fun k => (k.state, k.verdict)) = some (.stopping, none) := by
  and_intros <;> decide +kernel

/-- Tasks 7 and 8 of partitions 0 and 1 and of one class: the turn is partition 0's, whose deficit does not cover its task. -/
def twoTasks : State :=
  { world [] images with
    parts := vset (world [] images).parts 1 { pcoh := 2, pvf := 2, state := .running, rng := vset (Vector.replicate 16 0) 0 0x3FFFF0000003 }
    tasks := [(7, { record := kernelRecord, vf := 1, part := 0, pages := [owned] }),
      (8, { record := kernelRecord, vf := 2, part := 1, pages := [owned] })] }

/-- `SchedulingCompletes`, the turn: the task of partition 1 is admitted, with 64 owed less the one core it takes, while
partition 0 keeps what it has. -/
theorem witness_turn : (twoTasks.admittables 0).map (fun e => (e.1.1, e.1.2.prio, e.1.2.part, e.2)) = [(7, 0, 0, [0]), (8, 0, 1, [4])] ∧
    (twoTasks.tasks.map Prod.fst).Nodup ∧ (∀ e ∈ twoTasks.tasks, e.2.candidate = false ∧ e.2.state ≠ .reserved) ∧
    vget 0 (twoTasks.sched 0).cur 0 = 0 ∧ (twoTasks.sched 0).def_ 0 0 < 1 ∧ 1 ≤ (twoTasks.sched 0).def_ 1 0 + 64 ∧
    (match exec (.admissionDecision 0) twoTasks with
      | .next t => (((t.task? 8).map (fun z => (z.state, z.cores)), vget 0 (t.sched 0).cur 0, (t.sched 0).def_ 1 0,
          (t.sched 0).def_ 0 0) == (some (.loading, [4]), 1, 63, 0))
      | _ => false) = true := by
  and_intros <;> decide +kernel

/-- A gang that ends or that stops to release its cores, with a command that is cut short, a store not yet accepted, or
neither. -/
def leaving (x : TaskState) (bad : Option Verdict) (cut store : Bool) : State :=
  { (tasked x [0]).modCore 0 (fun k => { k with
      task := some 7
      cmds := if cut then [{ id := 20, words := [0x0100000000000000], moves := { limit := some (3, 7) } }] else []
      reqs := if store then [{ id := 21, issued := 90, eng := 5, op := .store [1], pieces := [⟨0, .device 0, 1⟩] }] else [] }) with
    tasks := [(7, { record := kernelRecord, vf := 1, part := 0, state := x, cores := [0], pages := [owned], verdict := bad })] }

/-- `SchedulingCompletes`: the launch block of a placement, ends with and without a verdict, and what they wait for. -/
theorem witness_leaving :
    ((tasked .loading [0]).task? 7).map (fun k => (k.commits, k.cores,
      ((tasked .loading [0]).readHeld k.owner k [((k.word 1).toNat, 64)]).1.isSome)) = some (0, [0], true) ∧
    ((leaving .running (some ⟨3, 0x1B, 0⟩) false false).task? 7).map (fun k => (k.state, k.verdict.isSome)) = some (.running, true) ∧
    ((leaving .running none false false).core 0).cmds = [] ∧
    ((leaving .running (some ⟨3, 0x1B, 0⟩) false true).core 0).reqs.map GReq.op = [.store [1]] ∧
    ((leaving .stopping none true false).core 0).cmds.map (fun x => x.moves.limit.isSome) = [true] ∧
    ((leaving .stopping none false false).task? 7).map (fun k => (k.state, k.verdict)) = some (.stopping, none) ∧
    ((leaving .stopping (some ⟨3, 0x1B, 0⟩) false false).task? 7).map (fun k => (k.state, k.verdict.isSome)) =
      some (.stopping, true) ∧
    (({ id := 20, words := [0x0100000000000000] } : Command).moves.limit = none ∧
      ({ id := 20, words := [0x0100000000000000] } : Command).isMoving = false ∧ cmdCompl [0x0100000000000000] = 0) := by
  and_intros <;> decide +kernel

/-- `WatchdogsComplete`: the anchor of a running task, and a core that its stop waits for. -/
theorem witness_watchdogs : (gang.task? 7).map (fun k => (k.state, k.verdict, k.cores.head?)) =
      some (.running, none, some 0) ∧ (gang.core 0).task = some 7 ∧ (gang.core 0).ownFault = false ∧
    (⟨.slip, 100, 100, 100, [], 0, 100, none, [], []⟩ : Stop).core = 0 := by decide +kernel

/-- `gang` late in time, with a watchdog. -/
def lateGang : State := { gang.modPart 0 (fun p => { p with wdog := 1 }) with tide := 0x40000 }

/-- `WatchdogsComplete`: a gate of a handler and one of the kernel that has been waited at too long. -/
theorem witness_late_gates :
    (let s := lateGang.modCore 0 (fun k => { k with
       mode := .handler, saved := some {}, stream := { k.stream with gate := { arrived := some 0 } } })
     (s.waitedLong 0 (s.core 0).stream.gate, s.waitedLong 0 (s.core 0).kernelGate)) = (true, false) ∧
    (let s := lateGang.modCore 0 (fun k => { k with
       mode := .handler, saved := some { k.stream with gate := { arrived := some 0 } } })
     (s.waitedLong 0 (s.core 0).stream.gate, s.waitedLong 0 (s.core 0).kernelGate)) = (false, true) := by decide +kernel

/-- A gang of cores 0 and 1 with a stop, core 0 faulted, with or without a handler. -/
def stopped (st : Stop) (vector : W64) : State :=
  { gang.modCore 0 (fun k => { k with trapvec := vector, fcause := fcauseOf true true 0 1 }) with
    tasks := [(7, { record := [], vf := 1, part := 0, state := .running, cores := [0, 1], stop := some st })] }

def faultStop : Stop := { kind := .fault, f := 90, plane := 98, allFrozen := 98 }
def slipStop : Stop := { kind := .missTrap, f := 90, plane := 101, allFrozen := 101, traps := [(0, 4, 5)] }
def endingStop : Stop := { kind := .slip, f := 90, plane := 98, allFrozen := 98, resume := some 100 }

/-- `StopStepsComplete`: a fault's freeze, a plane with a trap, a resume, a handler and none. -/
theorem witness_stops : ((stopped faultStop 0x80000000).task? 7).map (fun k => (k.stop, k.cores)) =
      some (some faultStop, [0, 1]) ∧ (gang.core 0).task = some 7 ∧ [0, 1].Nodup ∧ 0 ∈ [0, 1] ∧
    (gang.core 0).stoppable = true ∧ faultStop.pending 100 = false ∧ slipStop.traps = [(0, 4, 5)] ∧
    endingStop.resume = some gang.tide ∧
    ((stopped faultStop 0x80000000).task? 7).map (fun k => (stopped faultStop 0x80000000).handlersLeft k faultStop) =
      some (some 0) ∧ wbit ((stopped faultStop 0x80000000).core 0).trapvec 31 = true ∧
    wbit ((stopped faultStop 0).core 0).trapvec 31 = false := by and_intros <;> decide +kernel

/-- A core that fetches, with an absent tile 15, a walk, a Cooling value that nothing holds and one that a reader holds. -/
def timed (pend : List Pending) : State :=
  { (tasked .running [0]).modCore 0 (fun k => { k with
      task := some 7
      mode := .running
      lease := [(0, ⟨7, 0, .live⟩)]
      stream := { k.stream with fetching := true }
      tiles := vset k.tiles 15 { c := true, a := true, shape := fp32Shape }
      walk := some (4, 0, .load, none)
      pend := pend
      blocks := [(0, { state := .cooling, head := true }), (1, { state := .cooling, head := true, holds := 1 })] }) with
    agenda := [] }

/-- Core 0 with a word that reads register 1 at the queue's head, and register 1 pending. -/
def missing : State :=
  (timed [⟨.reg 1, 10, none⟩]).modCore 0 (fun k =>
    { k with stream := { k.stream with fetching := false } }.setQueue 0 { words := [⟨0, 0x00108400, [], none, 0, false⟩], nxt := 104 })

/-- `CoreStepsComplete`: the first word, a window with nothing missing and one with a miss, tile 15, a walk, and values. -/
theorem witness_core_steps : ((timed []).core 0).stream.fetching = true ∧
    ((timed []).core 0).streamWord ((timed []).fetchRows 0) 0 = some 0 ∧
    (((timed []).core 0).queue 0).words.length < 64 ∧ earliest (base.missesOf 0) = none ∧
    (earliest (missing.missesOf 0)).isSome = true ∧ (missing.core 0).mode = .running ∧
    (missing.taskOf 0).map Task.stop = some none ∧ (((timed []).core 0).tile 15).a = true ∧ 15 < 16 ∧
    ((timed []).core 0).walk = some (4, 0, .load, none) ∧
    ((timed []).walk 0 0 .load 0).toOption.isSome = true ∧ (((timed []).walk 0 0 .load 0x600000).toOption = none) ∧
    (timed []).tablesBusy 0 0 = false ∧ ((timed []).taskOf 0).map Task.stop = some none ∧ slipStop.kind.frames = true ∧
    endingStop.kind.frames = false ∧ ((timed []).core 0).heldRun 0 1 = false ∧ ((timed []).core 0).heldRun 1 1 = true := by
  and_intros <;> decide +kernel

/-- `CoreStepsComplete`: a tile that its save has yet to leave, a walk in a handler, and one that meets an entry in a line
that cannot be read. -/
theorem witness_walks :
    ((timed []).modCore 0 (fun k => { k with arriving := [⟨9, 90, 0, []⟩] }) |>.core 0).awaitsData 9 = true ∧
    ((timed []).core 0).awaitsData (timed []).subject = false ∧
    (((timed []).modCore 0 (fun k => { k with mode := .handler })).core 0).mode = .handler ∧
    (match ({ timed [] with poison := [0] }).walk 0 0 .load 0 with
      | .error (.unread d) => d == 0
      | _ => false) = true ∧
    (match (timed []).walk 0 0 .load 0x600000 with
      | .error (.fault ..) => true
      | _ => false) = true := by
  and_intros <;> decide +kernel

/-- A gang of cores 0 and 1 whose core 0 stands at a gate of a class, arrived. -/
def gated (cls : GateClass) : State :=
  { gang.modCore 0 (fun k => { k with
      stream := { k.stream with gate := { cls := cls, word := some 5, arrived := some 90 } } }) with
    bars := [⟨1, 0, 1, 0, 0, 90, []⟩] }

/-- A core alone in its gang that stands in an epilogue. -/
def closing : State :=
  { gang.modCore 0 (fun k => { k with epi := { active := true }, rings := Vector.replicate 16 {} }) with
    tasks := [(7, { record := [], vf := 1, part := 0, state := .running, cores := [0] })] }

/-- `GateStepsComplete`: no class; a barrier alike and one that differs; a lock in cohort and in global memory; RCON's
ring, TAKE's register; the end of an epilogue. -/
theorem witness_gate_steps : (gang.core 0).saved = none ∧ (gang.core 0).stream.gate.attemptOp = none ∧
    (gang.core 0).stream.gate.cls = .plain ∧ [0, 1].Nodup ∧
    ¬ (∃ b ∈ (gated (.bar (some (0, 1)) 0 0)).bars, b.core ∈ [0, 1] ∧ b.lo ≤ 0 ∧ 0 ≤ b.hi ∧ (b.lo, b.hi) ≠ (0, 1)) ∧
    (∃ b ∈ (gated (.bar (some (0, 0)) 0 0)).bars, b.core ∈ [0, 1] ∧ b.lo ≤ 0 ∧ 0 ≤ b.hi ∧ (b.lo, b.hi) ≠ (0, 0)) ∧
    (((gated (.rlk (.cohort 8) 3 1)).core 0).kernelGate.attemptOp = some (.rlk, .cohort 8, 3, 1)) ∧
    (((gated (.take 1 (.global 64 (.device 64) 1) 3 1)).core 0).kernelGate.attemptOp =
      some (.take, .global 64 (.device 64) 1, 3, 1)) ∧
    ((gated .plain).core 0).kernelGate.arrived.isSome = true ∧ ((gated .plain).core 0).kernelGate.busy = false ∧
    ((gated .plain).core 0).kernelGate.holds = false ∧ ((gated .plain).concerned 0).Nodup ∧
    ((gated .plain).core 0).reqs.any (fun r => r.op == .rfence) = false ∧
    ((gated .plain).modCore 0 (fun k => { k with reqs := [{ id := 3, issued := 90, eng := 6, op := .rfence, pieces := [] }] })
      |>.core 0).reqs.any (fun r => r.op == .rfence) = true ∧
    (∀ i ∈ [0, 1], ((gated .plain).core i).epi.active = false) ∧ (0 < 31 ∧ 31 < 32 ∧ 15 < 16) ∧
    (closing.core 0).epi.active = true ∧ (closing.core 0).uncommittable = none ∧
    (closing.taskOf 0).map Task.cores = some [0] := by and_intros <;> decide +kernel

/-- `GateStepsComplete`: a handler at its gate, and an attempt at cohort memory with an RFENCE outstanding. -/
theorem witness_gate_waits :
    ((gated .plain).modCore 0 (fun k => { k with mode := .handler, saved := some {} }) |>.core 0).mode = .handler ∧
    (let k := ((gated (.rlk (.cohort 8) 3 1)).modCore 0 (fun k => { k with
        reqs := [{ id := 3, issued := 90, eng := 6, op := .rfence, pieces := [] }] })).core 0
     (k.kernelGate.attemptOp, k.kernelGate.arrived.isSome, k.kernelGate.busy, k.kernelGate.holds,
       k.reqs.any (fun r => r.op == .rfence))) = (some (.rlk, .cohort 8, 3, 1), true, false, false, true) := by
  and_intros <;> decide +kernel

/-! ### Hypotheses met: memory and its services -/

/-- A request of core 0 that has been performed nowhere yet, at the first words of memory; line 9 cannot be read. -/
def landing (op : GOp) (a n : Nat) : State :=
  { gang.modCore 0 (fun k => { k with
      reqs := [{ id := 20, issued := 90, eng := 4, op := op, pieces := [⟨0, .device a, n⟩] }]
      near := [{ id := 30, task := some 7, issued := 80 }] }) with
    poison := [9]
    subject := 8
    acks := [{ id := 8, core := 0, task := 7, due := 100, msg := 30, reg := 0, status := none, error := some (0x19, 5) }] }

/-- `LandingsComplete`: pieces that can be read and that cannot; an error that waits for its gang and one that does not; units
that an operation changes, refuses, or cannot read. -/
theorem witness_landings : ((landing (.load 31 8 true) 0 8).core 0).req 20 ≠ none ∧
    ((landing (.load 31 8 true) 0 8).fetchPieces 0 [⟨0, .device 0, 8⟩]).1.toOption.isSome = true ∧
    ((landing (.loadRow 15 0 64) 576 64).fetchPieces 0 [⟨0, .device 576, 64⟩]).1.toOption = none ∧
    (15 < 16 ∧ ((landing (.loadRow 15 0 64) 0 64).core 0).tile 15 = {}) ∧
    ((landing (.loadValue 0 64) 0 64).fetchPieces 0 [⟨0, .device 0, 64⟩]).1.toOption.isSome = true ∧
    (((landing (.landing 0 64) 0 64).core 0).req 20).map GReq.op = some (.landing 0 64) ∧
    (landing (.load 1 8 false) 576 8).errorWaits 0 { id := 20, issued := 90, eng := 4, op := .fence, pieces := [] } = false ∧
    ({ landing (.load 1 8 false) 576 8 with tasks := [(7, { record := [], vf := 1, part := 0, stop := some faultStop })] }
      ).errorWaits 0 { id := 20, issued := 90, eng := 4, op := .fence, pieces := [] } = true ∧ (Rmw.cas 0 1).attempt = false ∧
    ((landing .fence 576 8).atomicTarget 0 (.device 576) (.cas 0 1)).1.toOption = none ∧
    (landing .fence 0 8).badAt 0 8 = none ∧ ((Rmw.cas 0 1).apply (bytesOfNat 8 0)).ok = true ∧
    (Rmw.rul.apply (bytesOfNat 8 0)).ok = false ∧ ((Rmw.fill 0).apply (bytesOfNat 16 (2 ^ 127))).ok = false := by
  and_intros <;> decide +kernel

/-- `LandingsComplete`, acknowledgements: an error of a request, and its loss. -/
theorem witness_acknowledgements :
    ((landing .fence 0 8).acks.find? (fun y => y.id == (landing .fence 0 8).subject)).map (fun a => (a.core, a.error)) = some (0, some (0x19, 5)) ∧
    ((landing .fence 0 8).core 0).task = some 7 ∧ (∀ y ∈ ((landing .fence 0 8).core 0).near, y.acked = true → y.error = none) ∧
    ((landing .fence 0 8).acks.map (fun a => (a.status, a.lost)) = [(none, false)]) := by
  and_intros <;> decide +kernel

/-- `LandingsComplete`: a core whose gang has stopped for good; a release at system scope behind an error that waits for the
stop to end, and one that nothing holds. -/
theorem witness_waiting_errors :
    (let s := { (landing .fence 0 8).modCore 0 (fun k => { k with mode := .frozen }) with
       tasks := [(7, { record := [], vf := 1, part := 0, state := .stopping, cores := [0] })] }
     s.discards 0) = true ∧ (landing .fence 0 8).discards 0 = false ∧
    (let s := { (landing .fence 0 8).modCore 0 (fun k => { k with
         near := [{ id := 10, task := some 7, issued := 80, acked := true, error := some (0x19, 5) }] }) with
       tasks := [(7, { record := [], vf := 1, part := 0, state := .running, cores := [0], stop := some faultStop })] }
     let r : GReq := { id := 20, issued := 90, eng := 6, op := .store [1], pieces := [], scope := 4, order := 2 }
     (s.releaseWaits 0 r, s.releaseWaits 0 { r with scope := 2 }, gang.releaseWaits 0 r)) = (true, false, false) := by
  and_intros <;> decide +kernel

/-- A page of E4M3 tokens of a size, with its share. -/
def page (share fill : Nat) : PageHeader := { share := share, tag := 5, fmt := 0, fill := fill, ks := 127, vs := 127 }

/-- A request to a base die from core 0, with an open group, a page header, and a bank. -/
def asking (kind : MsgKind) (h : PageHeader) (offline : Bool) : State :=
  { gang.setHeader 126 h with
    subject := 9
    fresh := 50
    msgs := [{ id := 9, core := some 0, task := 7, part := 0, stack := 0, kind := kind, reg := 1 }]
    poison := [9]
    banks := [(0, { offline := offline })] }

/-- `ReductionsComplete`: a target that can be read and one that cannot. -/
theorem witness_reductions : ((asking (.red 7 0 1) (page 0 0) false).msg 9).map Msg.kind = some (.red 7 0 1) ∧
    ((asking (.red 7 0 1) (page 0 0) false).msg 9).bind Msg.core ≠ none ∧
    (asking (.red 1 0 1) (page 0 0) false).badLine (0 / 64) = false ∧ (asking (.red 1 576 1) (page 0 0) false).badLine (576 / 64) = true := by
  decide +kernel

/-- `PageOperationsComplete`: every check of an append, rescale, fork and release, failing and passing, at its bounds. -/
theorem witness_page_operations : ((asking (.kvAppend 126 5 false 3 [] true) (page 1 0) false).msg 9).isSome = true ∧
    3 < 4 ∧ 255 < 256 ∧ ((asking (.kvRelease 126 5) (page 1 0) true).bank (126 / 128)).offline = true ∧
    ((asking (.kvRelease 126 5) (page 1 0) false).bank (126 / 128)).offline = false ∧
    ((asking (.kvRelease 126 5) (page 1 3) false).header 126) = page 1 3 ∧ (page 1 0).tag = (5#16).toNat ∧
    (page 1 0).tag ≠ (6#16).toNat ∧ (page 0 0).share = 0 ∧ 1 < (page 2 0).share ∧ (page 1 0).share ≤ 1 ∧
    (page 1 128).fill = fmtCapacity 0 ∧ (page 1 127).fill < fmtCapacity 0 ∧ (page 1 0).fmt ≠ 1 ∧
    (page 32766 0).share < 32767 ∧ (page 32767 0).share = 32767 ∧ (page 1 0).vs ≤ 255 ∧ 126 < (page 1 0).ks ∧
    ((asking (.kvRelease 126 5) (page 1 0) false).header 125).share = 0 ∧ 125 / 2 ^ 21 = 126 / 2 ^ 21 ∧
    fits 0 127 (halfValues 0 (List.replicate 256 0)) = true ∧
    fits 0 0 (halfValues 0 (List.replicate 256 0x7F)) = false := by and_intros <;> decide +kernel

/-- A scan of page 126's tokens for core 0's ring 0, whose slot 0 it has reserved. -/
def scan (tag : W16) (wide : Bool) (st : ScanState) : PageScan :=
  { id := 9, core := 0, task := 7, page := 126, tag := tag, tfirst := 0, tcount := 1, ordinal := 0, dim64 := wide, bf := false
    q := [], ring := 0, query := 1, index := 0, pos := some 0, state := st }

/-- `gang` with a scan, a page of one token, a line of memory that cannot be read, and the bank's marks. -/
def scanned (x : PageScan) (line : Nat) (b : Bank) : State :=
  { gang.setHeader 126 (page 1 1) with subject := 9, scans := [x], poison := [line], banks := [(0, b)] }

/-- `ScanStepsComplete`: each check failing and passing, a token that cannot be read, the record's slot. -/
theorem witness_scans :
    (scanned (scan 5 false .posted) 0 {}).scans.find? (fun y => y.id == 9) = some (scan 5 false .posted) ∧
    ((scanned (scan 5 false .posted) 0 { offline := true }).bank (126 / 128)).offline = true ∧
    ((scanned (scan 5 false .posted) 0 {}).bank (126 / 128)).offline = false ∧
    2047 ∈ ((scanned (scan 5 false .posted) 0 { badRows := [2047] }).bank 0).badRows ∧
    2047 ∉ ((scanned (scan 5 false .posted) 0 { badRows := [2046] }).bank 0).badRows ∧
    (page 1 1).tag ≠ (scan 6 false .posted).tag.toNat ∧ (page 1 1).tag = (scan 5 false .posted).tag.toNat ∧
    (page 1 1).fmt ≠ (scan 5 true .posted).fmt ∧ (page 1 1).fmt = (scan 5 false .posted).fmt ∧
    126 % 128 ∈ ((scanned (scan 5 false .posted) 0 { undefinedPages := [126] }).bank 0).undefinedPages ∧
    (scanned (scan 5 false .posted) ((scanned (scan 5 false .posted) 0 {}).pageBase 126 / 64) {}).badAt
      ((scanned (scan 5 false .posted) 0 {}).pageBase 126) 256 = some 0 ∧
    (scanned (scan 5 false .posted) 9 {}).badAt ((scanned (scan 5 false .posted) 0 {}).pageBase 126) 256 = none ∧
    (scan 5 false (.scanning 1 [] [0])).state = .scanning 1 [] [0] ∧ (scan 5 false .landing).state = .landing ∧
    (scanned (scan 5 false .landing) 0 {}).scanSlot (scan 5 false .landing) = some 0 ∧
    ((scanned (scan 5 false .landing) 0 {}).core 0).reservingFor 1 = false ∧
    ((scanned (scan 5 false .landing) 0 {}).modCore 0 (fun k => { k with
      captured := [{ at_ := 100, eng := 7, ord := 0, op := .ringReserve 0 1 0 (some 1) }] }) |>.core 0).reservingFor 1 = true ∧
    (scanned { scan 5 false (.writing []) with pos := none } 0 {}).scanSlot { scan 5 false (.writing []) with pos := none } = none ∧
    (scanned (scan 5 false (.writing [0])) 0 {}).scanSlot (scan 5 false (.writing [0])) = some 0 ∧
    (scanned (scan 5 false (.writing [0])) 0 {}).scanSlot { scan 5 false (.writing [0]) with cancelled := true } = none := by
  and_intros <;> decide +kernel

/-- `ScanStepsComplete`: the header row corrected, and a token behind a corrected line. -/
theorem witness_corrected : ((scanned (scan 5 false .posted) 0 { fixedHeaders := true }).bank 0).fixedHeaders = true ∧
    (let s := { scanned (scan 5 false .posted) 9 {} with corrected := [(scanned (scan 5 false .posted) 9 {}).pageBase 126 / 64] }
     s.scanFixed (scan 5 false .posted) (s.pageBase 126) 1) = [1] := by
  and_intros <;> decide +kernel

/-- `BankStepsComplete`: a tide at which a bank is refreshed. -/
theorem witness_refresh : ∃ t, (t + Config.refreshPhase 0) % 1170 = 0 := ⟨1169 * Config.refreshPhase 0, by omega⟩

/-- `BankStepsComplete`: a bank with a scan in it and one without; rows that its spares can replace. -/
theorem witness_banks : (scanned (scan 5 false (.scanning 1 [] [])) 0 {}).scanningIn 0 = true ∧
    (scanned (scan 5 false (.scanning 1 [] [])) 0 {}).scanningIn 1 = false ∧
    ((scanned (scan 5 false .posted) 0 { offline := true, spares := 14 }).bank 0).offline = true ∧
    ((scanned (scan 5 false .posted) 0 { offline := true, spares := 14 }).bank 0).spares + [2046].length ≤ 15 := by
  decide +kernel

/-- Group 3 of two contributors and one tile, limit 1.0, with the state of contributor 0. -/
def group (st : GroupState) (x : Contributor) (viol : Nat) : Group :=
  { id := 9, part := 0, stack := 0, desc := [0x3F80000000310000, 0, 0, 0x8000000000000000], dst := 0, compl := .device 0x1000
    conts := [x, {}], state := st, last := 0, viol := viol }

def grouped (kind : MsgKind) (g : Group) (wdog : W32) : State :=
  { (asking kind (page 0 0) false).modPart 0 (fun p => { p with wdog := wdog }) with groups := [g], poison := [], tide := 0x40000 }

/-- `GroupRequestsComplete`: no group, one that is open or completing; contributors and tiles at their bounds; the same run
and another; room and none; a watchdog that has expired or not. -/
theorem witness_group_requests :
    (grouped (.bwa 3 0 0) (group .open_ {} 0) 1).groupAt 0 0 4 = none ∧
    (grouped (.bwa 3 0 0) (group .open_ {} 0) 1).groupAt 0 0 3 = some (group .open_ {} 0) ∧
    (group .open_ {} 0).conts.length = (group .open_ {} 0).ncont + 1 ∧ (group .completing {} 0).state ≠ .open_ ∧
    (1 ≤ (group .open_ {} 0).ncont ∧ (group .open_ {} 0).ncont < 2 ∧ 0 ≤ (group .open_ {} 0).tiles ∧ (group .open_ {} 0).tiles < 1) ∧
    ((grouped (.groupOpen [0] 0 (.device 0) 0) (group .open_ {} 0) 1).msg 9).map Msg.kind = some (.groupOpen [0] 0 (.device 0) 0) ∧
    (grouped (.bwa 3 0 0) (group .open_ {} 0) 1).groupRoom 0 [0] = true ∧
    { grouped (.bwa 3 0 0) (group .open_ {} 0) 1 with groups := List.replicate 64 (group .open_ {} 0) }.groupRoom 0 [0] = false ∧
    (({} : Contributor).state = .empty ∧ { ({} : Contributor) with state := .staging, run := some 5 }.run = some 5 ∧
      { ({} : Contributor) with state := .staging, run := some 5 }.run ≠ some 6 ∧
      { ({} : Contributor) with state := .failed }.state = .failed) ∧
    (List.replicate 2048 (0 : W32)).length = 2048 ∧
    (grouped (.bwa 3 0 0) (group .open_ {} 0) 1).group 9 = some (group .open_ {} 0) ∧
    (group .open_ {} 0).last + ((grouped (.bwa 3 0 0) (group .open_ {} 0) 1).part 0).watchdog < 0x40000 ∧
    ¬((group .open_ {} 0).last + ((grouped (.bwa 3 0 0) (group .open_ {} 0) 0).part 0).watchdog < 0x40000) := by
  and_intros <;> decide +kernel

/-- A contributor that is measured. -/
def measured : Contributor := { state := .measuring, run := some 5, stage := [(0, 0x3F800000)] }

def optDesc : List W64 := [0x0008000000000000, 0, 0, 0, 0, 0, 0, 0, 0, 0, 0]

/-- `GroupPhasesComplete`: a contributor with an undo, a bad line or neither; norms of zero, a NaN, infinity and 1; a group
that applies; each STATUS of a record; optimiser steps alone, after a group, and while one is open. -/
theorem witness_group_phases :
    (grouped (.bwa 3 0 0) (group .open_ measured 0) 1).group 9 = some (group .open_ measured 0) ∧
    (0 < (group .open_ measured 0).conts.length ∧ ((group .open_ measured 0).cont 0).state = .measuring) ∧
    (measured.undo = false ∧ measured.bad = [] ∧ { measured with bad := [0] }.bad ≠ [] ∧ { measured with undo := true }.undo = true) ∧
    ((v32 0).isZero = true ∧ (v32 0x3F800000).isZero = false ∧ (v32 0x7FC00000).isNaN = true ∧ v32 0x7F800000 = .inf false ∧
      (v32 0x3F800000).isNaN = false ∧ v32 0x3F800000 ≠ .inf false) ∧
    (∀ l, l < 4 → (grouped (.bwa 3 0 0) (group .applying {} 0) 1).badLine ((0 + 64 * l) / 64) = false ∧
      (grouped (.bwa 3 0 0) (group .applying {} 0) 1).scanningIn
        ((grouped (.bwa 3 0 0) (group .applying {} 0) 1).bankOf (0 + 64 * l)) = false) ∧
    (group .applying {} 0).line ≤ (group .applying {} 0).elements / 16 ∧ (group .completing {} 0).written = false ∧
    (grouped (.bwa 3 0 0) (group .completing {} 0) 1).targetBusy (.device 0x1000) 192 = false ∧
    (scanned (scan 5 false (.scanning 1 [] [])) 9 {}).targetBusy (.device
      ((scanned (scan 5 false .posted) 0 {}).pageBase 126)) 32 = true ∧
    { group .completing {} 0 with aborted := true }.aborted = true ∧ (group .completing {} 1).viol ≠ 0 ∧
    (group .completing { ({} : Contributor) with range := true } 0).conts.any (fun x => x.range) = true ∧
    (group .completing { ({} : Contributor) with uncorr := true } 0).conts.any (fun x => x.uncorr) = true ∧
    (group .completing {} 0).ncorr = 0 ∧ (group .completing {} 0).compl = .device 0x1000 ∧
    (grouped (.bwa 3 0 0) (group .completing {} 0) 1).flagCore (group .completing {} 0) = some 0 ∧
    wbit ((group .completing {} 0).w 3) 63 = true ∧
    ((grouped (.opts optDesc [0, 64, 128, 192] (.device 0x1000) 0) (group .open_ {} 0) 1).msg 9).map Msg.kind =
      some (.opts optDesc [0, 64, 128, 192] (.device 0x1000) 0) ∧
    (wbit (optDesc.getD 0 0) 51 = true ∧ wbit ((0 : W64)) 51 = false ∧ 2 ≤ (Sparse.get 0xFF base.lastStatus (lastKey 0 0 0)).toNat) ∧
    (({ grouped (.opts [0x0030000000000000] [0, 64, 128, 192] (.device 0x1000) 0) (group .open_ {} 0) 1 with
      lastStatus := [] }).msg 9).map (fun m => ((grouped (.opts [0x0030000000000000] [0, 64, 128, 192] (.device 0x1000) 0)
        (group .open_ {} 0) 1).stepGroup m [0x0030000000000000], m.accepted, base.stepGroup m [0x0030000000000000], m.run)) =
      some (some 9, false, none, none) ∧ (0 ≤ optCount optDesc ∧ optCount optDesc = 1) ∧
    (∀ a ∈ [0, 64, 128, 192], a % 64 = 0 ∧ ∀ e, e < 1 →
      (grouped (.opts optDesc [0, 64, 128, 192] (.device 0x1000) 0) (group .open_ {} 0) 1).badLine ((a + 4 * e) / 64) = false ∧
      (grouped (.opts optDesc [0, 64, 128, 192] (.device 0x1000) 0) (group .open_ {} 0) 1).scanningIn (base.bankOf (a + 4 * e)) = false) ∧
    0 + 4 * 1 ≤ 64 ∧ 64 + 4 * 1 ≤ 128 ∧ 128 + 4 * 1 ≤ 192 := by
  and_intros <;> decide +kernel

/-- A copy of one element of 16 bits between scratchpad addresses, and one through ring n. -/
def commandOf (kind role n : Nat) : Command :=
  { id := 20, words := [w64 (kind * 2 ^ 56 + n * 2 ^ 40 + role * 2 ^ 38), 0x9000000000000000, 0x9000000000001000] }

def commanded (x : Command) : State :=
  (holding copyWords).modCore 0 (fun k => { k with
    cmds := [x], chains := vset (vset k.chains 0 { run := true, next := 0x9000000000020000 }) 1 { run := true, next := 1 } })

/-- A command that moves, before its first element, and one whose move is over. -/
def movingOf (kind role : Nat) : Command := { commandOf kind role 0 with state := .moving 90 (some 95) }
def movedOf (role : Nat) (fault : Option (Nat × W64)) : Command := { commandOf 1 role 0 with state := .moved 90 fault }

/-- `EngineCommandsComplete`: roles 0, 1 and 2 with an enabled ring, one disabled, one configured anew; an element that can
move, one whose bank is taken and one that cannot be reached; a move that is over, with a record that can be written and
one that cannot; a chain at its end, with a NEXT that faults, an entry that faults, a good one and a repeat. -/
theorem witness_engine_commands :
    ((commanded (commandOf 1 0 0)).core 0).command 20 = some (commandOf 1 0 0) ∧
    [0, 1, 2].map (fun r => cmdRole (commandOf 1 r 0).words) = [0, 1, 2] ∧
    (((commanded (commandOf 1 1 0)).core 0).ring 0).enabled = true ∧ (((commanded (commandOf 1 1 3)).core 0).ring 3).enabled = false ∧
    ((commanded (commandOf 1 1 0)).core 0).doomed (commandOf 1 1 0) = false ∧
    ((commanded (commandOf 1 1 0)).core 0).doomed { commandOf 1 1 0 with gen := 7 } = true ∧
    (commanded (commandOf 1 0 0)).recordBusy 0 (commandOf 1 0 0) = false ∧
    { commandOf 1 2 0 with state := .taken }.state = .taken ∧ (commandOf 1 2 0).state ≠ .taken ∧
    (reaches 1 1 = true ∧ reaches 0 1 = false) ∧ (movingOf 1 0).isMoving = true ∧ (movingOf 1 0).moves.bytes = none ∧
    (cmdElements (movingOf 1 0).words)[0]? = some (0, 0) ∧ (cmdElements (movingOf 1 0).words)[1]? = none ∧
    [1, 2, 3].map (fun r => cmdKind (commandOf r 0 0).words) = [1, 2, 3] ∧
    ((commanded (movingOf 1 0)).reachEnd 0 (movingOf 1 0) ((movingOf 1 0).source 0) 4 .command).toOption = some (.own (.scratch 0)) ∧
    ((commanded (movingOf 1 0)).reachEnd 0 (movingOf 1 0) ((movingOf 1 0).target 0) 4 .commandStore).toOption =
      some (.own (.scratch 0x1000)) ∧
    (movingOf 1 0).srcBytes = 4 ∧ (movingOf 1 0).dstBytes = 4 ∧
    (commanded (movingOf 1 0)).elementFree 0 false [(0, 0)] (movingOf 1 0) false (.ok (.own (.scratch 0))) = false ∧
    ((commanded (movingOf 1 0)).reachEnd 0 (movingOf 1 0) (.ptr 0xC000000000000000) 4 .command).toOption = none ∧
    (movedOf 0 none).state = .moved 90 none ∧ (movedOf 0 (some (0x16, 0))).state = .moved 90 (some (0x16, 0)) ∧
    ((commanded (movedOf 0 none)).reach 0 [] 0x9000000000000020 32 .store).toOption = some (.own (.scratch 32)) ∧
    ((commanded (movedOf 0 none)).reach 0 [owned] 64 32 .store).toOption = some (.pieces [⟨64, .device 64, 32⟩]) ∧
    ((commanded (movedOf 0 none)).reach 0 [] 1 32 .store).toOption = none := by
  and_intros <;> decide +kernel

/-- `EngineCommandsComplete`: a command that holds a value, at its last element; one cut short; records that wait for a bank
of scratchpad; an entry kept for a repeat and none; a line whose bank is free, one whose bank is taken, and one that is gone. -/
theorem witness_engine_turns :
    (let x : Command := { movingOf 1 0 with hold := some (0, 1) }
     (x.hold, decide (x.elements ≤ x.moves.next + 1))) = (some (0, 1), true) ∧
    ({ movingOf 1 0 with moves := { limit := some (1, 7) } } : Command).moves.limit = some (1, 7) ∧
    (let x := { movedOf 0 none with words := (movedOf 0 none).words ++ List.replicate 6 0 ++ [0x9000000000000020] }
     ((commanded x).recordBusy 0 x, ((commanded x).modCore 0 (fun k => { k with bankUse := [(0, 0)] })).recordBusy 0 x)) =
       (false, true) ∧
    (({ rep := 1, entry := copyWords } : Chain).entry ≠ [] ∧ ({ rep := 1 } : Chain).entry = []) ∧
    (let a : Arriving := ⟨9, 90, 128, List.replicate 64 1⟩
     let s := (commanded (commandOf 1 0 0)).modCore 0 (fun k => { k with arriving := [a] })
     let t := s.modCore 0 (fun k => { k with bankUse := [(2, 0)] })
     (banksFree (s.core 0).bankUse [2], decide (a ∈ (s.core 0).arriving), banksFree (t.core 0).bankUse [2],
       decide (a ∈ ((commanded (commandOf 1 0 0)).core 0).arriving))) = (true, true, false, false) := by
  and_intros <;> decide +kernel

theorem witness_chains :
    (((commanded (commandOf 1 0 0)).core 0).chain 2).next = 0 ∧ (((commanded (commandOf 1 0 0)).core 0).chain 0).rep = 0 ∧
    (({ rep := 1, entry := copyWords } : Chain).rep ≠ 0) ∧
    (deref ((commanded (commandOf 1 0 0)).core 0) 1 .ownOrGlobal (fun x => x % 128 == 0)).toOption = none ∧
    (deref ((commanded (commandOf 1 0 0)).core 0) 0x9000000000020000 .ownOrGlobal (fun x => x % 128 == 0)).toOption =
      some (.scratch 0x20000) ∧
    ((commanded (commandOf 1 0 0)).reach 0 [] 0x9000000000020000 128 .command).toOption = some (.own (.scratch 0x20000)) ∧
    ((commanded (commandOf 1 0 0)).reach 0 [] (2 ^ 56) 128 .command).toOption = none ∧
    (deref ((commanded (commandOf 1 0 0)).core 0) (2 ^ 56) .ownOrGlobal (fun x => x % 128 == 0)).toOption.isSome = true ∧
    firstFault (commandChecks true (wordsAt (holding copyWords) 128)) = none ∧
    (firstFault (commandChecks true (wordsAt (holding []) 128))).isSome = true ∧
    (((holding copyWords).core 0).sourceValue (advanced (wordsAt (holding copyWords) 128) 0)).toOption = some none ∧
    (((holding copyWords).core 0).sourceValue [0x0100000000000000, 0xB000000000000000]).toOption = none ∧
    (holding copyWords).baseFault 0 (advanced (wordsAt (holding copyWords) 128) 0) = none ∧
    ((holding copyWords).baseFault 0 [0x0100000000000000, 64, 128]).isSome = true ∧
    (holding copyWords).scans = [] ∧ cmdCompl copyWords = 0 ∧
    ([(3, 0)] : Grants).any (fun y => y.1 == (⟨1, 90, 192, [0]⟩ : Arriving).off / 64 % 32) = true ∧
    ([] : Grants).any (fun y => y.1 == (⟨1, 90, 192, [0]⟩ : Arriving).off / 64 % 32) = false := by
  and_intros <;> decide +kernel

/-! ### Hypotheses met: arrivals, operations, steps -/

/-- A SEND tile of 64 bytes for core 0, whose k15 has the configuration and counts given. -/
def inbox (r : Ring) (x : Inbound) : State :=
  { gang.modCore 0 (fun k => { k with rings := vset k.rings 15 r, reqs := [{ id := 8, issued := 90, eng := 4, op := .signal 1 31, pieces := [] }] }) with
    inbound := [x], subject := 9, flits := [⟨9, 100, some 7, [], .signal 0 31 0 none⟩, ⟨10, 100, some 7, [], .barrier 1 0⟩] }

def tile64 : Inbound := { send := 9, src := 1, dst := 0, image := List.replicate 64 0, left := 0 }
def oneSlot : Ring := { cfg := 0x10000 }

/-- `ArrivalsComplete`: a ring disabled, full and with room; a slot that stands or not; a signal that comes and one of the
core itself; a gang of the partition, and none. -/
theorem witness_arrivals : (inbox oneSlot tile64).inbound.find? (fun y => y.send == 9) = some tile64 ∧ 0 < 256 ∧
    (({} : Ring).inboxFault 64).isSome = true ∧ oneSlot.inboxFault 64 = none ∧ (oneSlot.inboxFault 65).isSome = true ∧
    (oneSlot.rsv - oneSlot.rel).toNat < oneSlot.slots ∧
    { oneSlot with rsv := 1 }.slots ≤ ({ oneSlot with rsv := 1 }.rsv - { oneSlot with rsv := 1 }.rel).toNat ∧
    ((inbox oneSlot tile64).core 0).mode = .running ∧
    (inbox oneSlot tile64).inboxStands { tile64 with slot := some (0, 0) } = some 0 ∧
    (inbox oneSlot tile64).inboxStands { tile64 with slot := some (0, 1) } = none ∧
    (inbox oneSlot tile64).inboxWritten { tile64 with slot := some (0, 0), passed := 1 } = true ∧
    (inbox oneSlot tile64).inboxWritten { tile64 with slot := some (0, 0) } = false ∧ tile64.left = 0 ∧
    { tile64 with left := 1 }.left ≠ 0 ∧
    (((inbox oneSlot tile64).core 0).task.isSome = true ∧ ((inbox oneSlot tile64).core 0).part = 0) ∧
    (base.core 0).task.isSome = false ∧
    ((inbox oneSlot tile64).flits.find? (fun y => y.id == 9)).map Flit.kind = some (.signal 0 31 0 none) ∧
    ((inbox oneSlot tile64).flits.find? (fun y => y.id == 10)).map Flit.kind = some (.barrier 1 0) ∧
    (inbox oneSlot tile64).flits.find? (fun y => y.id == 8) = none ∧
    (List.range 256).find? (fun d => (((inbox oneSlot tile64).core d).req 8).isSome) = some 0 ∧
    (((inbox oneSlot tile64).core 0).req 8).map (fun q => (q.op, q.scope)) = some (.signal 1 31, 0) := by
  and_intros <;> decide +kernel

/-- `ArrivalsComplete`: a tile that would raise 0x15 for a core that runs, that is frozen, and that runs its handler; flits to
pass on. -/
theorem witness_held_faults :
    ((inbox {} tile64).core 0).mode = .running ∧
    (((inbox {} tile64).modCore 0 (fun k => { k with mode := .frozen })).core 0).mode = .frozen ∧
    (((inbox {} tile64).modCore 0 (fun k => { k with mode := .handler })).core 0).mode = .handler ∧
    Nat.min ({ tile64 with slot := some (0, 0) }).arrived (0 + 2) = 1 := by
  and_intros <;> decide +kernel

/-- A core with a value, room or none in its format queue, and in a handler or not. -/
def performing (n : Nat) (inHandler : Bool) : State :=
  (heap 1).modCore 0 (fun k => { k with
    mode := if inHandler then .handler else .running
    saved := if inHandler then some { fmtq := List.replicate n 0 } else none
    stream := { k.stream with fmtq := if inHandler then [] else List.replicate n 0 } })

/-- `OperationsPerform`: handles that are and are no longer valid; format queues at their bound; a gate's attempt; a slot
that M words are done with. -/
theorem witness_operations :
    ((performing 0 false).core 0).stillValid 0xB000000000050000 = true ∧
    ((performing 0 false).core 0).stillValid 0xB000000000060000 = false ∧
    (((performing 0 false).core 0).resolve 0xB000000000050000).toOption = some 0 ∧
    (((performing 0 false).core 0).resolve 0xB000000000060000).toOption = none ∧
    ((performing 0 false).core 0).mode ≠ .frozen ∧
    ((performing 64 false).core 0).stream.fmtq.length = 64 ∧ ((performing 63 false).core 0).stream.fmtq.length < 64 ∧
    ((performing 64 true).core 0).saved.map (fun z => z.fmtq.length) = some 64 ∧ ((performing 0 true).core 0).stream.fmtq.length < 64 ∧
    ((performing 0 false).core 0).saved = none ∧
    (let k := (gang.modCore 0 (fun k => { k with stream := { k.stream with gate := { cls := .rlk (.cohort 8) 3 1, busy := true } } })).core 0
     k.kernelGate.busy) = true ∧ Rmw.take.attempt = true ∧ Rmw.rlk.attempt = true ∧
    ({ oneSlot with rsv := 1, pub := 1 } : Ring).popFault = none ∧ ({} : Ring).popFault = some 6 ∧ oneSlot.popFault = some 5 ∧
    imageBytes 0x5000037F = 528 ∧ elemBytes 0x5000037F = 512 ∧ (512 < 512 + 64 ∧ 528 ≤ 512 + 64 ∧ 448 + 64 ≤ 512) := by
  and_intros <;> decide +kernel

/-- `OperationsPerform`: registers, tiles and rings at their bounds; ring operations that fault and that do not. -/
theorem witness_performs : 255 < 256 ∧ (31 < 32 ∧ (31 : Nat) ≠ 0) ∧ (15 < 16 ∧ ((base.core 0).tile 15).a = false) ∧
    (Rmw.cas 0 1).attempt = false ∧ ((Rmw.cas 0 1).apply (bytesOfNat 8 0)).new.isSome = true ∧
    ((Rmw.cas 0 1).apply (bytesOfNat 8 5)).new = none ∧ (({} : Ring).reserveFault 1).isSome = true ∧
    oneSlot.reserveFault 1 = none ∧ (oneSlot.reserveFault 2).isSome = true ∧ (oneSlot.publishFault 0).isSome = true ∧
    { oneSlot with rsv := 1 }.publishFault 0 = none ∧ (oneSlot.releaseFault 0).isSome = true ∧
    { oneSlot with rsv := 1, pub := 1, con := 1 }.releaseFault 0 = none ∧ 0x80 + 15 = 0x8F := by
  and_intros <;> decide +kernel

/-- Core 0 with words at the head of queue 0, which comes next, and what a GUARD has read. -/
def heading (ws : List W32) (guard : Option Bool) : State :=
  { (tasked .running [0]).modCore 0 (fun k => { k with task := some 7, mode := .running }.setQueue 0
      { words := ws.map (fun w => ⟨0, w, [], none, 0, false⟩), nxt := 101, guard := guard }) with now := [.issue 0 0] }

def guardWord : W32 := 0b000_000_111111_00001_000000_0_00000000#32
def addWord : W32 := 0b000_010_000001_00011_00001_00010_00000#32

/-- `StepRunsDecoded`: an event; a word that R300 stops; a GUARD that is read; a word that its GUARD lets go, holds back,
or that has none. -/
theorem witness_steps : State.reset.powered = true ∧ State.reset.boot ≠ .fatal ∧ State.reset.now ≠ [] ∧
    ((heading [0] none).core 0).queue 0 ≠ {} ∧
    (((heading [0] none).core 0).queue 0).head = some (none, ⟨0, 0, [], none, 0, false⟩) ∧
    ((heading [0] none).fateOf 0 0 none ⟨0, 0, [], none, 0, false⟩).isSome = true ∧
    (((heading [guardWord, addWord] none).core 0).queue 0).head =
      some (some ⟨0, guardWord, [], none, 0, false⟩, ⟨0, addWord, [], none, 0, false⟩) ∧
    (heading [guardWord, addWord] none).fateOf 0 0 (some ⟨0, guardWord, [], none, 0, false⟩) ⟨0, addWord, [], none, 0, false⟩ = none ∧
    decode guardWord = .instr (.guard 0 1 0 0) ∧ decode addWord = .instr (.add 2 3 1 2) ∧
    (((heading [guardWord, addWord] none).core 0).queue 0).guard = none ∧
    ((heading [guardWord, addWord] none).core 0).tooSoon ((heading [guardWord, addWord] none).horizon 0) 100
      ((operands (.guard 0 1 0 0)).reads.map PendDest.reg) = none ∧
    (((heading [guardWord, addWord] (some true)).core 0).queue 0).guard ≠ some false ∧
    (((heading [guardWord, addWord] (some false)).core 0).queue 0).guard = some false ∧
    ((heading [addWord] none).core 0).tooSoon ((heading [addWord] none).horizon 0) 100
      (((heading [addWord] none).core 0).touches none ⟨0, addWord, [], none, 0, false⟩) = none ∧
    ((heading [addWord] none).core 0).absentRead ⟨0, addWord, [], none, 0, false⟩ = none := by
  and_intros <;> decide +kernel

/-- `EncodingRoundTrip`, `EncodingFaultsReported`: an encoding; a reserved word, an illegal one, and the three GUARDs. -/
theorem witness_encodings : encode (.add 2 3 1 2) = some addWord.toNat ∧ (Instr.add 2 3 1 2).wf = true ∧
    decode 0 = .illegal ∧ decode 0x00200001 ≠ .illegal ∧ isGuard guardWord = true ∧ idleOf guardWord = 0 ∧
    guardWord.toNat % 256 = 0 ∧ idleOf (guardWord ||| 0x04000000) ≠ 0 ∧ (guardWord ||| 1).toNat % 256 ≠ 0 := by
  and_intros <;> decide +kernel

/-- `ResetAndPower`, `StepKeepsCanonical`, `WordsChangeNothingAtIssue`: dead packages; a step from a canonical state; a word
that issues. -/
theorem witness_dead : { base with powered := false }.isDead = true ∧ { base with boot := .fatal }.isDead = true ∧
    { base with boot := .fatal }.powered = true ∧ { base with powered := false }.inputs = [] ∧
    { base with powered := false, inputs := [(1, .plimitWrite 0), (5, .packageReset lively)] }.isDead = true ∧
    (∃ t, exec (.add 2 3 1 2) scalars = .next t) ∧ encode (.add 2 3 1 2) ≠ none :=
  ⟨rfl, rfl, rfl, rfl, rfl, ⟨_, rfl⟩, by decide +kernel⟩

end Sys2Proof.Tests
end

section
/-!
PROOFS. The package as a whole: what bring-up leaves (R23 to R25), what the stop of a gang leaves alone (R137, R142),
and the statements about reset, recovery, power and cooling.
-/

namespace Sys2Proof

/-! ### Entries of a sparse map under `put` -/

theorem Sparse.find_of_notMem {α : Type} {m : Sparse α} {a : Nat} (h : a ∉ m.map Prod.fst) : m.find a = none := by
  induction m with
  | nil => rfl
  | cons e m ih =>
    simp only [List.map_cons, List.mem_cons, not_or] at h
    rw [Sparse.find, if_neg (Ne.symm h.1), ih h.2]

theorem Sparse.find_append_left {α : Type} (xs ys : Sparse α) {a : Nat} (h : a ∉ ys.map Prod.fst) :
    Sparse.find (xs ++ ys) a = xs.find a := by
  induction xs with
  | nil => exact Sparse.find_of_notMem h
  | cons x xs ih => simp only [List.cons_append, Sparse.find, ih]

theorem Sparse.find_filter_keys {α : Type} (m : Sparse α) (p : Nat → Bool) {a : Nat} (h : p a = true) :
    Sparse.find (m.filter (fun e => p e.1)) a = m.find a := by
  induction m with
  | nil => rfl
  | cons e m ih =>
    obtain ⟨k, v⟩ := e
    by_cases hk : k = a
    · subst hk
      simp [h, Sparse.find]
    · by_cases hp : p k = true <;> simp [hp, Sparse.find, hk, ih]

/-- An entry put leaves the entries of the other keys. -/
theorem Sparse.find_put_other {α : Type} (m : Sparse α) {k a : Nat} (v : α) (h : a ≠ k) :
    (m.put k v).find a = m.find a := by
  unfold Sparse.put
  rcases Nat.lt_or_gt_of_ne h with hlt | hgt
  · have hm := Sparse.find_filter_keys m (fun x => decide (x < k)) (a := a) (by simpa using hlt)
    have hn : a ∉ (((k, v) :: m.filter (fun e => k < e.1)) : Sparse α).map Prod.fst := by
      simp only [List.map_cons, List.mem_cons, List.mem_map, List.mem_filter, decide_eq_true_eq]
      rintro (rfl | ⟨e, ⟨-, he⟩, rfl⟩) <;> omega
    rw [Sparse.find_append_left _ _ hn]
    exact hm
  · have hm := Sparse.find_filter_keys m (fun x => decide (k < x)) (a := a) (by simpa using hgt)
    rw [Sparse.find_append _ _ _ (by simp; omega), Sparse.find, if_neg (Ne.symm h)]
    exact hm

theorem Sparse.mem_of_find {α : Type} {m : Sparse α} {a : Nat} {v : α} (h : m.find a = some v) : (a, v) ∈ m := by
  induction m with
  | nil => simp [Sparse.find] at h
  | cons e m ih =>
    obtain ⟨k, w⟩ := e
    by_cases hk : k = a
    · subst hk
      simp_all [Sparse.find]
    · simp only [Sparse.find, if_neg hk] at h
      exact List.mem_cons_of_mem _ (ih h)

namespace Machine

/-! ### What a state holds -/

theorem held_setCore (s : State) (c : Nat) (k : Core) (h : k.held = (s.core c).held) :
    (s.setCore c k).held = s.held := by
  have hv : (vset s.cores c k).map Core.held = s.cores.map Core.held := by
    apply Vector.ext
    intro i hi
    rw [Vector.getElem_map, Vector.getElem_map]
    by_cases hc : c = i
    · subst hc
      simpa [vset, State.core, vget, hi] using h
    · simp [vset, hc]
  simp only [State.held, State.setCore, hv]

theorem held_modCore (s : State) (c : Nat) (f : Core → Core) (h : ∀ k, (f k).held = k.held) :
    (s.modCore c f).held = s.held := held_setCore s c _ (h _)

@[simp] theorem framed_held (k : Core) : k.framed.held = k.held := rfl
@[simp] theorem framed_task (k : Core) : k.framed.task = k.task := rfl

/-- An update that keeps one aspect of a core keeps it for every core of the package. -/
theorem core_modCore_keeps {α : Type} (s : State) (c : Nat) (f : Core → Core) (g : Core → α)
    (h : ∀ k, g (f k) = g k) (d : Nat) : g ((s.modCore c f).core d) = g (s.core d) := by
  by_cases hd : d = c
  · subst hd
    by_cases hlt : d < 256
    · rw [core_modCore_same _ _ _ hlt, h]
    · rw [State.modCore, setCore_outside _ _ _ (Nat.le_of_not_lt hlt)]
  · rw [core_modCore_other _ _ hd]

@[simp] theorem task?_setTask_same (s : State) (t : Nat) (k : Task) : (s.setTask t k).task? t = some k :=
  Sparse.find_put _ _ _

theorem task?_setTask_other (s : State) {t n : Nat} (k : Task) (h : n ≠ t) : (s.setTask t k).task? n = s.task? n :=
  Sparse.find_put_other _ _ h

theorem task?_of_taskOf {s : State} {c t : Nat} {k : Task} (hk : s.taskOf c = some k) (ht : (s.core c).task = some t) :
    s.task? t = some k := by
  rwa [State.taskOf, ht] at hk

theorem taskOf_of_task? {s : State} {c t : Nat} {k : Task} (ht : (s.core c).task = some t) (hk : s.task? t = some k) :
    s.taskOf c = some k := by
  rwa [State.taskOf, ht]

/-! ### States that differ by gangs that stop -/

/-- A record of a task that has kept its state and its verdict, or has one now. -/
def Task.becomes (k y : Task) : Prop := y.verdict.isSome = true ∨ (y.verdict = k.verdict ∧ y.state = k.state)

/-- What the stop of a gang leaves: every content, the tasks that the cores run, the tasks themselves but for those
that have a verdict now, and the rest of the package but for its links, its agenda and its count of numbers. -/
structure State.StopsTo (s t : State) : Prop where
  held : t.held = s.held
  task : ∀ c, (t.core c).task = (s.core c).task
  tasks : ∀ m k, s.task? m = some k → ∃ y, t.task? m = some y ∧ k.becomes y
  rest : t = { s with tasks := t.tasks, cores := t.cores, links := t.links, agenda := t.agenda, fresh := t.fresh }

theorem Task.becomes_refl (k : Task) : k.becomes k := .inr ⟨rfl, rfl⟩

theorem Task.becomes_trans {k x y : Task} (h : k.becomes x) (g : x.becomes y) : k.becomes y := by
  rcases g with hy | ⟨hv, hs⟩
  · exact .inl hy
  · rcases h with hx | ⟨hv', hs'⟩
    · exact .inl (hv ▸ hx)
    · exact .inr ⟨hv.trans hv', hs.trans hs'⟩

namespace State.StopsTo

theorem refl (s : State) : s.StopsTo s := ⟨rfl, fun _ => rfl, fun _ k h => ⟨k, h, k.becomes_refl⟩, rfl⟩

theorem trans {s t u : State} (h : s.StopsTo t) (g : t.StopsTo u) : s.StopsTo u where
  held := g.held.trans h.held
  task c := (g.task c).trans (h.task c)
  tasks m k hk := by
    obtain ⟨x, hx, hkx⟩ := h.tasks m k hk
    obtain ⟨y, hy, hxy⟩ := g.tasks m x hx
    exact ⟨y, hy, Task.becomes_trans hkx hxy⟩
  rest := g.rest.trans (congrArg
    (fun x : State => { x with
      tasks := u.tasks, cores := u.cores, links := u.links, agenda := u.agenda, fresh := u.fresh })
    h.rest)

/-- A fold of steps of which each stops gangs at most. -/
theorem foldl {α : Type} (f : State → α → State) (h : ∀ (s : State) (x : α), s.StopsTo (f s x)) (xs : List α)
    (s : State) : s.StopsTo (xs.foldl f s) := by
  induction xs generalizing s with
  | nil => exact refl s
  | cons x xs ih => exact (h s x).trans (ih _)

theorem due (s : State) (t : Nat) (i : Instr) (n : Nat) : s.StopsTo (s.due t i n) :=
  ⟨rfl, fun _ => rfl, fun _ k h => ⟨k, h, k.becomes_refl⟩, rfl⟩

theorem cancel (s : State) (f : Due → Bool) : s.StopsTo (s.cancel f) :=
  ⟨rfl, fun _ => rfl, fun _ k h => ⟨k, h, k.becomes_refl⟩, rfl⟩

theorem unstated (s : State) : s.StopsTo s.unstated.2 :=
  ⟨rfl, fun _ => rfl, fun _ k h => ⟨k, h, k.becomes_refl⟩, rfl⟩

theorem takeSlot (s : State) (link t : Nat) : s.StopsTo (s.takeSlot link t) :=
  ⟨rfl, fun _ => rfl, fun _ k h => ⟨k, h, k.becomes_refl⟩, rfl⟩

theorem tell (s : State) (d e : Nat) : s.StopsTo (s.tell d e) := by
  suffices h : ∀ (legs : List (Nat × Nat)) (x : State × Nat), x.1.StopsTo (legs.foldl (fun x leg =>
      (x.1.takeSlot leg.1 (x.1.linkSlot leg.1 x.2 65536), x.2 + 40 + leg.2)) x).1 from h _ (s, s.tide)
  intro legs
  induction legs with
  | nil => exact fun x => refl x.1
  | cons leg legs ih => exact fun x => (takeSlot x.1 leg.1 _).trans (ih (_, _))

theorem tellDies (s : State) (c : Nat) (cs : List Nat) : s.StopsTo (s.tellDies c cs) :=
  foldl _ (fun s d => tell s _ d) _ s

theorem modCore (s : State) (c : Nat) (f : Core → Core) (hh : ∀ k, (f k).held = k.held)
    (ht : ∀ k, (f k).task = k.task) : s.StopsTo (s.modCore c f) :=
  ⟨held_modCore s c f hh, core_modCore_keeps s c f Core.task ht, fun _ k h => ⟨k, h, k.becomes_refl⟩, rfl⟩

theorem setTask {s : State} {t : Nat} {k y : Task} (hk : s.task? t = some k) (hy : k.becomes y) :
    s.StopsTo (s.setTask t y) where
  held := rfl
  task _ := rfl
  tasks m x hx := by
    by_cases hm : m = t
    · subst hm
      obtain rfl : k = x := Option.some.inj (hk.symm.trans hx)
      exact ⟨y, task?_setTask_same s m y, hy⟩
    · exact ⟨x, (task?_setTask_other s y hm).trans hx, x.becomes_refl⟩
  rest := rfl

theorem setStop {s : State} {t : Nat} {k : Task} (hk : s.task? t = some k) (stop : Option Stop) :
    s.StopsTo (s.setTask t { k with stop := stop }) := setTask hk (.inr ⟨rfl, rfl⟩)

/-- A freeze leaves of a task's record all but its stop (R137). -/
theorem freeze (s : State) (c : Nat) (kind : StopKind) : s.StopsTo (s.freeze c kind) := by
  unfold State.freeze
  split
  next k t hk ht =>
    have hstart (u : State) (hu : u.task? t = some k) (stop : Option Stop) (cs : List Nat) :
        u.StopsTo (cs.foldl (fun s d => s.due (s.tide + freezeLag c d) (.freezeArrival d) 0)
          ((u.setTask t { k with stop := stop }).tellDies c cs)) :=
      (setStop hu stop).trans ((tellDies _ c cs).trans (foldl _ (fun s d => due s _ _ _) cs _))
    have hkt : s.task? t = some k := task?_of_taskOf hk ht
    dsimp only
    split
    · exact hstart s hkt _ _
    · split
      · exact (cancel s _).trans (hstart (s.cancel _) hkt _ _)
      · split
        · exact (setStop hkt _).trans ((cancel _ _).trans
            (foldl _ (fun s d => modCore s d _ framed_held framed_task) _ _))
        · exact refl s
  next => exact refl s

end State.StopsTo

/-- What the end of a core's task does (R142): nothing where the core runs no task, or one that has its verdict or is
Stopping; else the task has the verdict, and what follows stops its gang. -/
theorem fail_cases (s : State) (c cause : Nat) (detail : W32) :
    (s.fail c cause detail = s ∧ ∀ t k, (s.core c).task = some t → s.task? t = some k →
      k.verdict.isSome = true ∨ k.state = .stopping) ∨
    ∃ t k, (s.core c).task = some t ∧ s.task? t = some k ∧
      (s.setTask t { k with verdict := some ⟨0x03, BitVec.ofNat 8 cause, detail⟩, state := .ending }).StopsTo
        (s.fail c cause detail) := by
  unfold State.fail
  split
  next k t hk ht =>
    have hkt := task?_of_taskOf hk ht
    split
    next h =>
      refine .inl ⟨rfl, fun t' k' ht' hk' => ?_⟩
      obtain rfl : t = t' := Option.some.inj (ht.symm.trans ht')
      obtain rfl : k = k' := Option.some.inj (hkt.symm.trans hk')
      simpa using h
    next =>
      refine .inr ⟨t, k, ht, hkt, ?_⟩
      generalize hu : s.setTask t _ = u
      have hut : (u.core c).task = some t := by rw [← hu]; exact ht
      have huv := (State.StopsTo.modCore u c (fun x => { x with stopAt := some (x.stopAt.getD (u.tide + 1)) })
        (fun _ => rfl) (fun _ => rfl)).trans (State.StopsTo.freeze _ c .fault)
      refine huv.trans ?_
      have hv := (huv.task c).trans hut
      dsimp only
      split
      next y hy =>
        split
        · exact (State.StopsTo.setStop (task?_of_taskOf hy hv) _).trans (State.StopsTo.due _ _ _ _)
        · exact State.StopsTo.due _ _ _ _
      next => exact State.StopsTo.refl _
  next hnone =>
    refine .inl ⟨rfl, fun t k ht hk => (hnone k t (taskOf_of_task? ht hk) ht).elim⟩

theorem fail_stopsTo (s : State) (c cause : Nat) (detail : W32) : s.StopsTo (s.fail c cause detail) := by
  rcases fail_cases s c cause detail with ⟨h, -⟩ | ⟨t, k, -, hk, h⟩
  · exact h.symm ▸ State.StopsTo.refl s
  · exact (State.StopsTo.setTask hk (.inl rfl)).trans h

/-! ### Tasks that are to end -/

theorem State.StopsTo.ends {s t : State} (h : s.StopsTo t) {n : Nat} (hn : s.ends n) : t.ends n := by
  obtain ⟨k, hk, hv⟩ := hn
  obtain ⟨y, hy, hky⟩ := h.tasks n k hk
  exact ⟨y, hy, hky.elim id (fun hs => hs.1 ▸ hv)⟩

/-- The end of a core's task gives it its verdict, unless the task is Stopping (R142). -/
theorem fail_ends {s : State} {c n : Nat} {k : Task} (hc : (s.core c).task = some n) (hk : s.task? n = some k)
    (hs : k.state ≠ .stopping) (cause : Nat) (detail : W32) : (s.fail c cause detail).ends n := by
  rcases fail_cases s c cause detail with ⟨h, hold⟩ | ⟨t, x, ht, -, h⟩
  · exact h.symm ▸ ⟨k, hk, (hold n k hc hk).resolve_right hs⟩
  · obtain rfl : n = t := Option.some.inj (hc.symm.trans ht)
    exact h.ends ⟨_, task?_setTask_same _ _ _, rfl⟩

/-- What `State.terminate` does with one entry of the task table (R18, R22). -/
def State.terminateOne (which : Task → Bool) (s : State) (e : Nat × Task) : State :=
  if e.2.state == .running && which e.2 then
    s.unstated.2.fail (e.2.cores.headD 0) 0 (BitVec.ofNat 32 s.unstated.1)
  else s

theorem terminate_eq_foldl (s : State) (which : Task → Bool) :
    s.terminate which = s.tasks.foldl (State.terminateOne which) s := rfl

theorem terminateOne_stopsTo (which : Task → Bool) (s : State) (e : Nat × Task) :
    s.StopsTo (s.terminateOne which e) := by
  unfold State.terminateOne
  split
  · exact (State.StopsTo.unstated s).trans (fail_stopsTo _ _ _ _)
  · exact State.StopsTo.refl s

theorem terminate_stopsTo (s : State) (which : Task → Bool) : s.StopsTo (s.terminate which) :=
  State.StopsTo.foldl _ (terminateOne_stopsTo which) _ s

theorem terminateOne_ends {s : State} {which : Task → Bool} {n c : Nat} {k y : Task} (hr : k.state = .running)
    (hw : which k = true) (hc : k.cores.head? = some c) (ht : (s.core c).task = some n) (hy : s.task? n = some y)
    (hky : k.becomes y) : (s.terminateOne which (n, k)).ends n := by
  have hhead : k.cores.headD 0 = c := by rw [List.headD_eq_head?_getD, hc, Option.getD_some]
  rcases hky with hv | ⟨-, hs⟩
  · exact (terminateOne_stopsTo which s (n, k)).ends ⟨y, hy, hv⟩
  · rw [State.terminateOne, if_pos (by simp [hr, hw]), hhead]
    have hs' : y.state ≠ .stopping := by rw [hs, hr]; decide
    exact fail_ends (s := s.unstated.2) ht hy hs' 0 _

/-- A running gang that is terminated is to end: its first core still runs its task when its turn comes, whatever the
turns before it have stopped. -/
theorem terminate_ends {s : State} {which : Task → Bool} {n c : Nat} {k : Task} (hk : s.task? n = some k)
    (hr : k.state = .running) (hw : which k = true) (hc : k.cores.head? = some c) (ht : (s.core c).task = some n) :
    (s.terminate which).ends n := by
  obtain ⟨before, after, hl⟩ := List.append_of_mem (Sparse.mem_of_find hk)
  have hb := State.StopsTo.foldl _ (terminateOne_stopsTo which) before s
  obtain ⟨y, hy, hky⟩ := hb.tasks n k hk
  rw [terminate_eq_foldl, hl, List.foldl_append, List.foldl_cons]
  exact (State.StopsTo.foldl _ (terminateOne_stopsTo which) after _).ends
    (terminateOne_ends hr hw hc ((hb.task c).trans ht) hy hky)

/-! ### Events that the host is told of -/

theorem event_frame (s : State) (fn ty core : Nat) (addr info : W64) :
    ∃ host funcs, s.event fn ty core addr info = { s with host := host, funcs := funcs } := by
  unfold State.event
  dsimp only
  split
  · exact ⟨_, _, rfl⟩
  · split
    · exact ⟨_, _, rfl⟩
    · exact ⟨_, _, rfl⟩

theorem configError_refuses (s : State) (off : Nat) :
    s.refuses (s.configError off) ∧ (s.configError off).plimit = s.plimit := by
  obtain ⟨host, funcs, h⟩ := event_frame s 0 0x09 0 (w64 off) 0
  rw [State.configError, h]
  exact ⟨⟨rfl, rfl, rfl⟩, rfl⟩

theorem harbourEvent_frame (s : State) (ty : Nat) : ∃ host funcs msix fresh,
    s.harbourEvent ty = { s with host := host, funcs := funcs, msix := msix, fresh := fresh } := by
  obtain ⟨host, funcs, h⟩ := event_frame { s with fresh := s.fresh + 2 } 0 ty 0 (Config.eventDetail s.fresh)
    (Config.eventDetail (s.fresh + 1))
  refine ⟨host, funcs, s.msix ++ [(0, Config.eventVector ty)], s.fresh + 2, ?_⟩
  unfold State.harbourEvent
  dsimp only
  rw [h]
  rfl

/-! ### Power and cooling (R18, R20, R22, R49) -/

theorem exec_plimitWrite {s : State} (h : s.boot = .ready) (v : W64) : exec (.plimitWrite v) s =
    .next (if wbits v 15 0 < 600 || 2000 < wbits v 15 0 then s.configError 0x10
      else { s with plimit := BitVec.ofNat 16 (wbits v 15 0), phold := s.phold || decide (wbits v 15 0 < s.watts) }) :=
  congrArg Host.Outcome.next (if_pos h)

theorem exec_powerWindow {s : State} (h : s.boot = .ready) (n : Nat) : exec (.powerWindow n) s =
    .next { s with watts := n, phold := decide (s.plimit.toNat < n) } := congrArg Host.Outcome.next (if_pos h)

theorem exec_tideCompare {s : State} (h : s.boot = .ready) (bad : BitVec 4) : exec (.tideCompare bad) s =
    .next ({ s with misal := s.misal ||| bad }.terminate (fun k => k.cores.any (fun c => bad.getLsbD (dieOf c)))) :=
  congrArg Host.Outcome.next (if_pos h)

/-- The low 16 bits of a written word are the limit in watts (R49). -/
theorem ofNat_wbits_low (v : W64) : BitVec.ofNat 16 (wbits v 15 0) = v.setWidth 16 := by
  apply BitVec.eq_of_toNat_eq
  simp [wbits, bits]

/-- Admission held for heat (R22): the host is told where it was not held before. -/
def State.holdForHeat (s : State) : State := if s.thold then s else { s with thold := true }.harbourEvent 0x05

theorem holdForHeat_frame (s : State) : ∃ host funcs msix fresh, s.holdForHeat =
    { s with thold := true, host := host, funcs := funcs, msix := msix, fresh := fresh } := by
  unfold State.holdForHeat
  split
  next h => exact ⟨s.host, s.funcs, s.msix, s.fresh, by rw [← h]⟩
  next => exact harbourEvent_frame _ _

theorem exec_thermalSample_removes (s : State) {n : Nat} (h : 120 ≤ n) :
    exec (.thermalSample n) s = .next { s with powered := false } := congrArg Host.Outcome.next (if_pos h)

/-- What a reading below 120 °C does in a ready package (R22). -/
theorem exec_thermalSample_ready {s : State} (hb : s.boot = .ready) {n : Nat} (h : n < 120) :
    exec (.thermalSample n) s = .next (if 95 ≤ n then
        (if 105 ≤ n then { s.holdForHeat with ttrip := true }.terminate (fun _ => true) else s.holdForHeat)
      else if n < 90 then { s with thold := false } else s) :=
  congrArg Host.Outcome.next ((if_neg (by omega)).trans (if_neg (by simp [hb])))

/-- Settles O30: each step by its equation; a gang that is terminated ends by `terminate_ends`. -/
theorem powerAndCoolingComplete : Obligations.PowerAndCoolingComplete := by
  unfold Obligations.PowerAndCoolingComplete
  intro s v bad n hb w gangsEnd
  refine ⟨fun hlo hhi => ?_, fun hout => ?_, exec_powerWindow hb n, exec_thermalSample_removes s, fun hlo hhi => ?_,
    fun hlo hhi => ?_, fun hlo hhi => ?_, fun hlo => ?_, ?_⟩
  · rw [exec_plimitWrite hb, if_neg (by simp; omega), ofNat_wbits_low]
  · have hc := configError_refuses s 0x10
    exact ⟨_, by rw [exec_plimitWrite hb, if_pos (by simpa using hout)], hc⟩
  · obtain ⟨host, funcs, msix, fresh, hh⟩ := holdForHeat_frame s
    rw [exec_thermalSample_ready hb hhi, if_pos (by omega), if_pos hlo, hh]
    have hst := terminate_stopsTo { s with
      thold := true, ttrip := true, host := host, funcs := funcs, msix := msix, fresh := fresh } (fun _ => true)
    exact ⟨_, rfl, congrArg State.thold hst.rest, congrArg State.ttrip hst.rest, hst.held,
      fun m k c hk hr hw hc ht => terminate_ends hk hr hw hc ht⟩
  · obtain ⟨host, funcs, msix, fresh, hh⟩ := holdForHeat_frame s
    rw [exec_thermalSample_ready hb (by omega), if_pos hlo, if_neg (by omega), hh]
    exact ⟨_, rfl, rfl, rfl, rfl, rfl⟩
  · rw [exec_thermalSample_ready hb (by omega), if_neg (by omega), if_neg (by omega)]
  · rw [exec_thermalSample_ready hb (by omega), if_neg (by omega), if_pos hlo]
  · have hst := terminate_stopsTo { s with misal := s.misal ||| bad }
      (fun k => k.cores.any (fun c => bad.getLsbD (dieOf c)))
    exact ⟨_, exec_tideCompare hb bad, congrArg State.misal hst.rest, hst.held,
      fun m k c hk hr hw hc ht => terminate_ends hk hr hw hc ht⟩

/-! ### Bring-up (R23, R25) -/

theorem testBit_add_top {x n : Nat} (hx : x < 2 ^ n) (b : Bool) (i : Nat) :
    (x + if b then 2 ^ n else 0).testBit i = if i = n then b else x.testBit i := by
  cases b with
  | false =>
    rw [if_neg Bool.false_ne_true, Nat.add_zero]
    split
    next h => rw [h, Nat.testBit_lt_two_pow hx]
    next => rfl
  | true =>
    rw [if_pos rfl, Nat.add_comm]
    rcases Nat.lt_trichotomy i n with h | rfl | h
    · rw [Nat.testBit_two_pow_add_gt h, if_neg (by omega)]
    · rw [Nat.testBit_two_pow_add_eq, Nat.testBit_lt_two_pow hx, if_pos rfl, Bool.not_false]
    · have hi : 2 ^ (n + 1) ≤ 2 ^ i := Nat.pow_le_pow_right Nat.two_pos h
      rw [Nat.pow_succ] at hi
      rw [if_neg (by omega), Nat.testBit_lt_two_pow (by omega), Nat.testBit_lt_two_pow (by omega)]

/-- A sum of the powers of two that `f` picks below `n` is below 2 ^ n, and its bits are those of `f`. -/
theorem bitSum_spec (f : Nat → Bool) (n : Nat) :
    ((List.range n).map (fun i => if f i then 2 ^ i else 0)).sum < 2 ^ n ∧
    ∀ i, ((List.range n).map (fun i => if f i then 2 ^ i else 0)).sum.testBit i = (decide (i < n) && f i) := by
  induction n with
  | zero => simp
  | succ n ih =>
    obtain ⟨hlt, hbit⟩ := ih
    simp only [List.range_succ, List.map_append, List.sum_append, List.map_cons, List.map_nil, List.sum_cons,
      List.sum_nil, Nat.add_zero]
    refine ⟨by rw [Nat.pow_succ]; split <;> omega, fun i => ?_⟩
    rw [testBit_add_top hlt, hbit]
    split
    next h => simp [h]
    next h => rw [decide_eq_decide.mpr (show i < n ↔ i < n + 1 by omega)]

@[simp] theorem getLsbD_bitsOf (n : Nat) (f : Nat → Bool) (i : Nat) :
    (bitsOf n f).getLsbD i = (decide (i < n) && f i) := by
  rw [bitsOf, BitVec.getLsbD_ofNat, (bitSum_spec f n).2, ← Bool.and_assoc, Bool.and_self]

theorem presentDies_bit (e : BootEnv) {d : Nat} (h : d < 4) : (presentDies e).getLsbD d =
    (e.diesOk.getLsbD d && e.stacksOk.getLsbD (2 * d) && e.stacksOk.getLsbD (2 * d + 1)) := by
  rw [presentDies, getLsbD_bitsOf, decide_eq_true h, Bool.true_and]

theorem stacksOf_bits (dies : BitVec 4) {d : Nat} (h : d < 4) :
    (stacksOf dies).getLsbD (2 * d) = dies.getLsbD d ∧ (stacksOf dies).getLsbD (2 * d + 1) = dies.getLsbD d := by
  have hdiv : 2 * d / 2 = d ∧ (2 * d + 1) / 2 = d := by omega
  have hlt : 2 * d < 8 ∧ 2 * d + 1 < 8 := by omega
  rw [stacksOf, getLsbD_bitsOf, getLsbD_bitsOf, hdiv.1, hdiv.2, decide_eq_true hlt.1, decide_eq_true hlt.2,
    Bool.true_and]
  exact ⟨rfl, rfl⟩

theorem ne_zero_of_bit {n : Nat} {x : BitVec n} {i : Nat} (h : x.getLsbD i = true) : x ≠ 0 := by
  rintro rfl
  simp at h

/-- A die that passed its self-test and has its stacks keeps the package from staying at phase 4 or 5 (R25). -/
theorem bootAlive_dies {e : BootEnv} (h : bootAlive e) : e.diesOk ≠ 0 ∧ presentDies e ≠ 0 := by
  obtain ⟨d, hd, h1, h2, h3⟩ := h
  exact ⟨ne_zero_of_bit h1, ne_zero_of_bit (i := d) (by rw [presentDies_bit e hd, h1, h2, h3]; rfl)⟩

theorem bringUp_noDie (s : State) {e : BootEnv} (h : e.diesOk = 0) (image : List Byte) :
    s.bringUp e image = { s with image := image }.stuckAt 4 := if_pos h

theorem bringUp_misaligned (s : State) {e : BootEnv} (h : bootAlive e) (ht : e.tideOk = false) (image : List Byte) :
    s.bringUp e image =
      { s with image := image, diepres := presentDies e, stkpres := stacksOf (presentDies e), boot := .fatal } :=
  (if_neg (bootAlive_dies h).1).trans ((if_neg (bootAlive_dies h).2).trans (if_pos (by simp [ht])))

theorem bringUp_aligned (s : State) {e : BootEnv} (h : bootAlive e) (ht : e.tideOk = true) (image : List Byte) :
    s.bringUp e image =
      { s with
        image := image, diepres := presentDies e, stkpres := stacksOf (presentDies e), tide := 0, drawn := 0
        drawnAt := 0, stationUp := e.stationsUp, portUp := e.portsUp, boot := .ready } :=
  (if_neg (bootAlive_dies h).1).trans ((if_neg (bootAlive_dies h).2).trans (if_neg (by simp [ht])))

theorem bringUp_upWith (s : State) {e : BootEnv} (h : bootAlive e) (ht : e.tideOk = true) (image : List Byte) :
    (s.bringUp e image).upWith e := by
  rw [bringUp_aligned s h ht]
  exact ⟨rfl, rfl, rfl, rfl, fun d hd => ⟨presentDies_bit e hd, stacksOf_bits _ hd⟩⟩

/-- However bring-up ends, it leaves power, the power limit, tasks, host memory and flash. -/
theorem bringUp_frame (s : State) (e : BootEnv) (image : List Byte) :
    let t := s.bringUp e image
    t.powered = s.powered ∧ t.plimit = s.plimit ∧ t.tasks = s.tasks ∧ t.host = s.host ∧ t.flash = s.flash := by
  unfold State.bringUp
  dsimp only
  split
  · exact ⟨rfl, rfl, rfl, rfl, rfl⟩
  · split
    · exact ⟨rfl, rfl, rfl, rfl, rfl⟩
    · split
      · exact ⟨rfl, rfl, rfl, rfl, rfl⟩
      · exact ⟨rfl, rfl, rfl, rfl, rfl⟩

/-! ### Package reset and recovery (R23, R24, R50) -/

theorem imageOk_iff (image : List Byte) :
    imageOk image = true ↔ Config.signed image = true ∧ versionOk image = true := by
  rw [imageOk, Bool.and_eq_true]

theorem exec_packageReset_good (s : State) (e : BootEnv) (h : imageOk s.flash = true) :
    exec (.packageReset e) s = .next (s.beforeBoot.bringUp e s.flash) := congrArg Host.Outcome.next (if_pos h)

theorem exec_packageReset_bad (s : State) (e : BootEnv) (h : ¬ imageOk s.flash = true) :
    exec (.packageReset e) s = .next { s.beforeBoot with boot := .recovery, rcvwait := true } :=
  congrArg Host.Outcome.next (if_neg h)

/-- Whatever image the flash holds, a package reset gives the package power and the default limit, and ends its
tasks. -/
theorem exec_packageReset_frame (s : State) (e : BootEnv) : ∃ t, exec (.packageReset e) s = .next t ∧
    t.powered = true ∧ t.plimit = 2000 ∧ t.tasks = [] ∧ t.host = s.host ∧ t.flash = s.flash := by
  by_cases h : imageOk s.flash = true
  · exact ⟨_, exec_packageReset_good s e h, bringUp_frame s.beforeBoot e s.flash⟩
  · exact ⟨_, exec_packageReset_bad s e h, rfl, rfl, rfl, rfl, rfl⟩

theorem wbit_eq_getLsbD (v : W64) (i : Nat) : wbit v i = v.getLsbD i := by
  rw [BitVec.getLsbD, Nat.testBit_eq_decide_div_mod_eq, wbit]
  exact Bool.beq_eq_decide_eq _ _

/-- A write of RCVGO in recovery wait, while no image is read or verified (R50). -/
theorem exec_rcvgo {s : State} {v : W64} (hb : s.boot = .recovery) (hv : v.getLsbD 0 = true) (h1 : s.rcvcode ≠ 1)
    (h2 : s.rcvcode ≠ 2) : exec (.rcvgo v) s =
      .next (if s.rcvlen.toNat < 2 ^ 12 || 2 ^ 26 < s.rcvlen.toNat then { s with rcvcode := 6 }
        else { s with rcvcode := 1, fresh := s.fresh + 1 + 1 }.due (s.tide + 1 + Config.latency s.fresh)
          (.recoveryImageRead (Config.recoveryRead (s.fresh + 1))) 0) :=
  congrArg Host.Outcome.next (if_neg (by simp [hb, wbit_eq_getLsbD, hv, h1, h2]))

theorem exec_recoveryImageRead_reading {s : State} (hb : s.boot = .recovery) (hc : s.rcvcode = 1) (r : RecoveryRead) :
    exec (.recoveryImageRead r) s = .next (if !r.dmaOk then { s with rcvcode := 7 }
      else { s with
        fresh := s.fresh + 1, rcvcode := 2, rcvimage := s.host.read s.rcvaddr.toNat s.rcvlen.toNat }.due
          (s.tide + 1 + Config.latency s.fresh) (.recoveryImageRead r) 0) :=
  congrArg Host.Outcome.next ((if_neg (by simp [hb])).trans ((if_neg (by simp [hc])).trans (if_neg (by simp [hc]))))

theorem exec_recoveryImageRead_verifying {s : State} (hb : s.boot = .recovery) (hc : s.rcvcode = 2) (r : RecoveryRead) :
    exec (.recoveryImageRead r) s = .next (s.verify r.env) :=
  congrArg Host.Outcome.next ((if_neg (by simp [hb])).trans (if_pos hc))

theorem verify_unsigned {s : State} (h : Config.signed s.rcvimage = false) (e : BootEnv) :
    s.verify e = { s with rcvcode := 4 } := if_pos (by simp [h])

theorem verify_old {s : State} (hs : Config.signed s.rcvimage = true) (h : versionOk s.rcvimage = false) (e : BootEnv) :
    s.verify e = { s with rcvcode := 5 } := (if_neg (by simp [hs])).trans (if_pos (by simp [h]))

theorem verify_good {s : State} (hs : Config.signed s.rcvimage = true) (h : versionOk s.rcvimage = true) (e : BootEnv) :
    s.verify e = { s with rcvcode := 3, rcvwait := false, flash := s.rcvimage }.bringUp e s.rcvimage :=
  (if_neg (by simp [hs])).trans (if_neg (by simp [h]))

/-- Settles O29: bring-up by its equation for each end, recovery by the step's branches. -/
theorem bringUpCompletes : Obligations.BringUpCompletes := by
  unfold Obligations.BringUpCompletes
  intro s e v r good
  refine ⟨?_, fun hb hv h1 h2 => ⟨fun hlen => ?_, fun hlo hhi => ?_⟩, fun hb hc => ?_, fun hb hc => ?_⟩
  · obtain ⟨t, ht, -, hl, hk, hh, hf⟩ := exec_packageReset_frame s e
    refine ⟨t, ht, hl, hk, hh, hf, ?_⟩
    by_cases hg : imageOk s.flash = true
    · obtain rfl := Host.Outcome.next.inj ((exec_packageReset_good s e hg).symm.trans ht)
      refine ⟨fun _ ha hal => ⟨bringUp_upWith _ ha hal _, by rw [bringUp_aligned _ ha hal]⟩,
        fun _ ha hal => by rw [bringUp_misaligned _ ha hal], fun _ hd => ?_,
        fun hn => (hn ((imageOk_iff _).mp hg)).elim⟩
      rw [bringUp_noDie _ hd]
      exact ⟨rfl, rfl⟩
    · have hn : ¬ good s.flash := fun h => hg ((imageOk_iff _).mpr h)
      obtain rfl := Host.Outcome.next.inj ((exec_packageReset_bad s e hg).symm.trans ht)
      exact ⟨fun h => (hn h).elim, fun h => (hn h).elim, fun h => (hn h).elim, fun _ => ⟨rfl, rfl⟩⟩
  · rw [exec_rcvgo hb hv h1 h2, if_pos (by simpa using hlen)]
  · rw [exec_rcvgo hb hv h1 h2, if_neg (by simp; omega)]
    exact ⟨_, _, rfl, rfl, hb, rfl, rfl, _, List.mem_append_right _ (List.mem_singleton_self _), rfl,
      by dsimp only; omega⟩
  · rw [exec_recoveryImageRead_reading hb hc]
    refine ⟨_, rfl, fun h => by rw [if_pos (by simp [h])], fun h => ?_⟩
    rw [if_neg (by simp [h])]
    exact ⟨rfl, hb, rfl, _, List.mem_append_right _ (List.mem_singleton_self _), rfl, by dsimp only; omega⟩
  · refine ⟨_, exec_recoveryImageRead_verifying hb hc r, fun h => verify_unsigned h _, fun h g => verify_old h g _,
      fun ⟨h, g⟩ ha hal => ?_⟩
    rw [verify_good h g]
    refine ⟨bringUp_upWith _ ha hal _, ?_⟩
    rw [bringUp_aligned _ ha hal]
    exact ⟨rfl, rfl, rfl, rfl⟩

/-! ### Right after reset, and without power (R20, R22, R23) -/

theorem vget_replicate {α : Type} (d : α) (n i : Nat) : vget d (Vector.replicate n d) i = d := by
  by_cases h : i < n <;> simp [vget, h]

@[simp] theorem core_reset (c : Nat) : State.reset.core c = {} := vget_replicate _ _ _

theorem canonical_default_core : Core.canonical {} := by
  refine ⟨rfl, fun n => ?_, rfl, fun q => ?_, rfl⟩
  · rw [Core.tile, vget_replicate]
    exact ⟨rfl, rfl⟩
  · rw [vget_replicate]
    exact ⟨rfl, rfl⟩

theorem canonical_reset : State.reset.canonical := by
  obtain ⟨hdevice, hcohort, hhost⟩ := Memory.wf_reset
  exact ⟨hcohort, hdevice, hhost, fun c => (core_reset c).symm ▸ canonical_default_core⟩

/-- An input that is no package reset finds no package (log 37). -/
theorem resetInput_skip {x : Nat × Instr} (h : ∀ e, x.2 ≠ .packageReset e) (xs : List (Nat × Instr)) :
    resetInput (x :: xs) = resetInput xs := by
  rw [resetInput]
  exact fun _ e hx => h e (congrArg Prod.snd hx)

theorem resetInput_none {xs : List (Nat × Instr)} (h : ∀ x ∈ xs, ∀ e, x.2 ≠ .packageReset e) :
    resetInput xs = none := by
  induction xs with
  | nil => rfl
  | cons x xs ih =>
    rw [resetInput_skip (h x List.mem_cons_self), ih (fun y hy => h y (List.mem_cons_of_mem _ hy))]

/-- Where a package reset is among the inputs, the first of them is found. -/
theorem resetInput_of_mem {xs : List (Nat × Instr)} {x : Nat × Instr} (hx : x ∈ xs) {e : BootEnv}
    (he : x.2 = .packageReset e) : ∃ e' rest, resetInput xs = some (.packageReset e', rest) := by
  induction xs with
  | nil => cases hx
  | cons y ys ih =>
    by_cases hy : ∃ e', y.2 = .packageReset e'
    · obtain ⟨n, i⟩ := y
      obtain ⟨e', rfl⟩ := hy
      exact ⟨e', ys, rfl⟩
    · have hskip : ∀ e', y.2 ≠ .packageReset e' := fun e' h => hy ⟨e', h⟩
      have hmem : x ∈ ys := (List.mem_cons.mp hx).resolve_left (fun h => hskip e (h ▸ he))
      rw [resetInput_skip hskip]
      exact ih hmem

/-- A package that does nothing answers a package reset, wherever it stands among the inputs (log 37). -/
theorem dead_reset {s : State} {x : Nat × Instr} (hx : x ∈ s.inputs) {e : BootEnv} (he : x.2 = .packageReset e)
    (f : Fault) : ∃ t, s.dead f = .next t ∧ t.powered = true := by
  obtain ⟨e', rest, h⟩ := resetInput_of_mem hx he
  obtain ⟨t, ht, hp, -⟩ := exec_packageReset_frame { s with inputs := rest, now := [] } e'
  exact ⟨t, by rw [State.dead, h]; exact ht, hp⟩

theorem dead_waits {s : State} (h : ∀ x ∈ s.inputs, ∀ e, x.2 ≠ .packageReset e) (f : Fault) :
    s.dead f = .fault f := by
  rw [State.dead, resetInput_none h]

theorem step_unpowered {s : State} (h : s.powered = false) : step s = s.dead .powerRemoved := if_pos (by simp [h])

theorem step_fatal {s : State} (hp : s.powered = true) (hb : s.boot = .fatal) : step s = s.dead .packageFatal :=
  (if_neg (by simp [hp])).trans (if_pos hb)

/-- Settles O58: the state right after reset by its fields; a dead package by what its inputs hold. -/
theorem resetAndPower : Obligations.ResetAndPower := by
  unfold Obligations.ResetAndPower
  refine ⟨⟨rfl, rfl, rfl, rfl, canonical_reset, rfl, fun _ => ⟨rfl, rfl⟩, fun c => ?_, fun c f => ?_, _, rfl⟩,
    fun s hs => ?_⟩
  · rw [core_reset]
    exact ⟨rfl, rfl, rfl⟩
  · rw [core_reset, Core.flag, Core.reg, vget_replicate, vget_replicate, ite_self]
    exact ⟨rfl, rfl⟩
  · have hfatal : s.powered = true → s.boot = .fatal := fun hp => by simpa [State.isDead, hp] using hs
    refine ⟨fun x hx e he => ?_, fun hno => ⟨fun hp => ?_, fun hp => ?_⟩⟩
    · cases hp : s.powered with
      | false => rw [step_unpowered hp]; exact dead_reset hx he _
      | true => rw [step_fatal hp (hfatal hp)]; exact dead_reset hx he _
    · rw [step_unpowered hp, dead_waits hno]
    · rw [step_fatal hp (hfatal hp), dead_waits hno]

end Machine
end Sys2Proof
end
